-- ==== Sys2Proof/Word.lean ====
section
/-! DEFINITION. The word types of the FISHER-IR codec: 32-bit registers (spec/10_state.md R31) and the
bytes of a received Variant B frame (R46). Nothing else stands here. -/

namespace Sys2Proof

/-- A register, a command word or a value on the host's bus (spec/10_state.md R31): 32 bits, bit 0 the
least significant (spec/00_scope.md R9). -/
abbrev Word := BitVec 32

/-- One received Variant B byte (spec/10_state.md R46). -/
abbrev Byte := BitVec 8

end Sys2Proof
end

