-- ==== Sys2Proof/Syntax.lean ====
section
/-! DEFINITION. The host commands of spec/30_encoding.md R83, one constructor for each row of
spec/opcode_table.json. The value operand is no part of a command: it is the ARG register (R80). -/

namespace Sys2Proof

/-- A host command. `len` is the LEN operand of R80 (CMD[13:8], zero-extended, R81); the commands whose LEN
must be 0 carry none. -/
inductive Instr where
  /-- NOP (spec/46_control.md R221). -/
  | nop
  /-- REV (spec/40_bit_codec.md R116). -/
  | rev (len : Nat)
  /-- EMITB (R117). -/
  | emitb
  /-- EMITN (R118). -/
  | emitn (len : Nat)
  /-- EMITR (R119). -/
  | emitr (len : Nat)
  /-- MAPENC (spec/43_semantic_mapper.md R192). -/
  | mapenc
  /-- MAPDEC (R193). -/
  | mapdec
  /-- CSUM (spec/44_checksum.md R202). -/
  | csum
  /-- CSUMV (R203). -/
  | csumv
  /-- BLNEXT (spec/45_blade.md R215). -/
  | blnext
  /-- TX (spec/41_frame_encoder.md R130). -/
  | tx
  /-- RX (spec/42_frame_decoder.md R150). -/
  | rx
  /-- RXCLR (R168). -/
  | rxclr
  deriving DecidableEq, Repr

end Sys2Proof
end

