-- ==== Sys2Proof/WellFormed.lean ====
section
/-! DEFINITION. Which terms of Instr a command word can spell (spec/30_encoding.md R80). -/

namespace Sys2Proof

/-- LEN is a 6-bit field, 0..63 (spec/30_encoding.md R80). -/
def lenFits (len : Nat) : Bool := decide (len < 64)

/-- A command that some command word spells. A LEN of 33..63 is well formed: the word exists, and its command
raises BAD_OPERAND (spec/30_encoding.md R81). -/
def Instr.wellFormed : Instr → Bool
  | .nop => true
  | .rev len => lenFits len
  | .emitb => true
  | .emitn len => lenFits len
  | .emitr len => lenFits len
  | .mapenc => true
  | .mapdec => true
  | .csum => true
  | .csumv => true
  | .blnext => true
  | .tx => true
  | .rx => true
  | .rxclr => true

end Sys2Proof
end

