-- ==== Sys2Proof/Decode.lean ====
section
/-! DEFINITION. The command word (spec/30_encoding.md R80-R84): its fields, the opcode map, the decoder (total
on all 2^32 words, rejecting by name) and, after it, the encoder. The block fetches nothing
(spec/20_memory.md R73): a command word reaches the decoder as the value of one 32-bit write to CMD, so the
decoder's input is that word and no byte order enters. -/

namespace Sys2Proof

/-- Why a word is no command. Each of them raises Error(ILLEGAL_CMD) (spec/60_exceptions.md R232). -/
inductive DecodeError where
  /-- RSV = CMD[31:14] is not zero (spec/30_encoding.md R82). -/
  | reservedNonZero
  /-- OP is no opcode of R83 (R84). -/
  | unassignedOp
  /-- LEN is not zero for an opcode whose LEN must be 0 (R81). -/
  | lenNonZero
  deriving DecidableEq, Repr

/-- OP = CMD[7:0] (spec/30_encoding.md R80). -/
def opField (w : Word) : BitVec 8 := w.extractLsb' 0 8

/-- LEN = CMD[13:8] (spec/30_encoding.md R80). -/
def lenField (w : Word) : BitVec 6 := w.extractLsb' 8 6

/-- RSV = CMD[31:14] (spec/30_encoding.md R80). -/
def rsvField (w : Word) : BitVec 18 := w.extractLsb' 14 18

/-- A row of R83 whose LEN is "0" (spec/30_encoding.md R81). -/
def withoutLen (len : Nat) (i : Instr) : Except DecodeError Instr :=
  if len = 0 then .ok i else .error .lenNonZero

/-- The opcode map of spec/30_encoding.md R83; R84 for every other OP. -/
def decodeOp (op len : Nat) : Except DecodeError Instr :=
  match op with
  | 0x00 => withoutLen len .nop
  | 0x01 => .ok (.rev len)
  | 0x02 => withoutLen len .emitb
  | 0x03 => .ok (.emitn len)
  | 0x04 => .ok (.emitr len)
  | 0x10 => withoutLen len .mapenc
  | 0x11 => withoutLen len .mapdec
  | 0x12 => withoutLen len .csum
  | 0x13 => withoutLen len .csumv
  | 0x14 => withoutLen len .blnext
  | 0x20 => withoutLen len .tx
  | 0x21 => withoutLen len .rx
  | 0x22 => withoutLen len .rxclr
  | _ => .error .unassignedOp

/-- The decoder. The checks are made in the order of spec/60_exceptions.md R238: RSV, then OP, then LEN. -/
def decode (w : Word) : Except DecodeError Instr :=
  if rsvField w = 0 then decodeOp (opField w).toNat (lenField w).toNat
  else .error .reservedNonZero

/-- The command `decode` reads, or none where it rejects the word. -/
def decode? (w : Word) : Option Instr :=
  match decode w with
  | .ok i => some i
  | .error _ => none

/-- The host's question: the command read from the instruction whose bits are `w`, numbered as
spec/opcode_table.json numbers them. A command has one word of 32 bits. -/
def decodeTableWord (nbits w : Nat) : Option Instr :=
  decode? (BitVec.ofNat 32 (w % 2 ^ nbits))

/-- The word of R80 with this OP and LEN and RSV = 0. -/
def commandWord (op : BitVec 8) (len : Nat) : Word :=
  (BitVec.ofNat 6 len ++ op).setWidth 32

/-- OP of each command (spec/30_encoding.md R83). -/
def Instr.opcode : Instr → BitVec 8
  | .nop => 0x00
  | .rev _ => 0x01
  | .emitb => 0x02
  | .emitn _ => 0x03
  | .emitr _ => 0x04
  | .mapenc => 0x10
  | .mapdec => 0x11
  | .csum => 0x12
  | .csumv => 0x13
  | .blnext => 0x14
  | .tx => 0x20
  | .rx => 0x21
  | .rxclr => 0x22

/-- LEN of each command; 0 where R83 says LEN is 0. -/
def Instr.lenOperand : Instr → Nat
  | .rev len => len
  | .emitn len => len
  | .emitr len => len
  | .nop => 0
  | .emitb => 0
  | .mapenc => 0
  | .mapdec => 0
  | .csum => 0
  | .csumv => 0
  | .blnext => 0
  | .tx => 0
  | .rx => 0
  | .rxclr => 0

/-- Whether R83 gives the command's row a free LEN ("field") or LEN "0". -/
def Instr.takesLen : Instr → Bool
  | .rev _ => true
  | .emitn _ => true
  | .emitr _ => true
  | .nop => false
  | .emitb => false
  | .mapenc => false
  | .mapdec => false
  | .csum => false
  | .csumv => false
  | .blnext => false
  | .tx => false
  | .rx => false
  | .rxclr => false

/-- The mask of the command's row: 0xFFFFC0FF where LEN is a field, else 0xFFFFFFFF (spec/30_encoding.md R83). -/
def Instr.rowMask (i : Instr) : Word := if i.takesLen then 0xFFFFC0FF else 0xFFFFFFFF

/-- The match value of the command's row (spec/30_encoding.md R83). -/
def Instr.rowMatch (i : Instr) : Word := commandWord i.opcode 0

/-- The word of a command (spec/30_encoding.md R80, R97: `(len << 8) | OP`). -/
def encode (i : Instr) : Word := commandWord i.opcode i.lenOperand

end Sys2Proof
end

