-- ==== Sys2Proof/Config.lean ====
section
/-! DEFINITION. What an implementation fixes: the types of the open parameters of spec/00_scope.md R8
(BASE, MATCH, RXA_FIELD_ORDER, RXA_CONST_ORDER, BLADE_CODE, BLADE_NEXT), as plain data. The spec leaves no
value free (spec/70_reset_and_hazards.md R261: "No value is left unspecified"), so no opaque constant stands
here. The spec's defaults and what the parameters mean stand in Machine/Constants.lean and
Machine/Params.lean. -/

namespace Sys2Proof

/-- The ten blade positions (spec/45_blade.md R210). -/
inductive BladePos where
  | stop | full | l1 | l2 | l3 | l4 | l5 | low | mid | high
  deriving DecidableEq, Repr

/-- One entry for each blade position: the shape of BLADE_CODE and of each column of BLADE_NEXT
(spec/00_scope.md R8), as plain data. -/
structure BladeTable (α : Type) where
  stop : α
  full : α
  l1 : α
  l2 : α
  l3 : α
  l4 : α
  l5 : α
  low : α
  mid : α
  high : α
  deriving DecidableEq, Repr

/-- The two orders in which received symbols make a field's value (spec/30_encoding.md R93). -/
inductive AccumOrder where
  | byIndex
  | msbFirst
  deriving DecidableEq, Repr

/-- One window of a MATCH given by a table: observed durations `lo` to `hi` match the duration
`expected`, all in microseconds. -/
structure MatchWindow where
  expected : Nat
  lo : Nat
  hi : Nat
  deriving DecidableEq, Repr

/-- The transport's tolerance predicate MATCH (spec/00_scope.md R8) as plain data.
DESIGN CHOICE (log 3), safe: `ratio` has the form of the spec's default, and `windows` can spell every
predicate on the 16-bit durations and the durations the block expects, since any finite set is a union of
windows. -/
inductive MatchRule where
  /-- `lo * expected ≤ den * observed ≤ hi * expected`. -/
  | ratio (den lo hi : Nat)
  /-- A match exactly where some window says so. -/
  | windows (rows : List MatchWindow)
  deriving DecidableEq, Repr

/-- The open parameters of spec/00_scope.md R8. -/
structure Params where
  /-- BASE: the byte address of the register window (R8, spec/20_memory.md R61). -/
  base : Nat
  /-- MATCH. -/
  matchRule : MatchRule
  /-- RXA_FIELD_ORDER. -/
  fieldOrder : AccumOrder
  /-- RXA_CONST_ORDER. -/
  constOrder : AccumOrder
  /-- BLADE_CODE. -/
  bladeCodes : BladeTable (BitVec 4)
  /-- BLADE_NEXT where the swing intent is not vertical. -/
  bladeNextStill : BladeTable BladePos
  /-- BLADE_NEXT where the swing intent is vertical. -/
  bladeNextVertical : BladeTable BladePos
  deriving DecidableEq, Repr

end Sys2Proof
end

