-- ==== Sys2Proof/Machine/Constants.lean ====
section
/-! DEFINITION. The named constants of spec/00_scope.md R6 and R7, the climate enumerations of
spec/10_state.md R38, and the defaults of the open parameters of spec/00_scope.md R8. An audit of the
literals (spec/92_eei_decisions.md D41) changes only this file. -/

namespace Sys2Proof.Machine

/-! Durations in microseconds, the carrier in hertz, temperatures in degrees (spec/00_scope.md R6). -/

def hdrMark : Nat := 6050
def hdrSpace : Nat := 7450
def bitMark : Nat := 660
def oneSpace : Nat := 1630
def zeroSpace : Nat := 530
def carrierHz : Nat := 38000
def minTemp : Nat := 16
def maxTemp : Nat := 32

/-- CONST_A_TX, sent reversed in 11 bits by Variant A. -/
def constATx : Word := 0x52

/-- CONST_A_RX, the value Variant A's 11-bit constant must assemble to. -/
def constARx : Nat := 0x250

/-- THERMO_SEL, sent reversed in 2 bits by Variant A. -/
def thermoSel : Word := 2

/-- CONST_B, sent in 8 bits by Variant B. -/
def constB : Word := 0xA5

/-- HDR_B, the bytes Variant B's first five must equal. -/
def hdrB : List Byte := [0x11, 0xDA, 0x17, 0x18, 0x00]

/-- W, the width of ARG and RESULT and the largest LEN of the Bit Codec commands (spec/00_scope.md R7). -/
def maxLen : Nat := 32

/-- RXCAP_MAX, the pairs the capture buffer holds (spec/00_scope.md R7: 256). -/
def rxcapMax : Nat := 256

/-! The numbering of CLIMATE.MODE, CLIMATE.FAN and CLIMATE.SWING (spec/10_state.md R38). -/

def modeOff : BitVec 3 := 0
def modeHeatCool : BitVec 3 := 1
def modeCool : BitVec 3 := 2
def modeHeat : BitVec 3 := 3
def modeFanOnly : BitVec 3 := 4
def modeDry : BitVec 3 := 5
def modeAuto : BitVec 3 := 6

def fanOn : BitVec 4 := 0
def fanOff : BitVec 4 := 1
def fanAuto : BitVec 4 := 2
def fanLow : BitVec 4 := 3
def fanMedium : BitVec 4 := 4
def fanHigh : BitVec 4 := 5
def fanMiddle : BitVec 4 := 6
def fanFocus : BitVec 4 := 7
def fanDiffuse : BitVec 4 := 8
def fanQuiet : BitVec 4 := 9

def swingOff : BitVec 2 := 0
def swingBoth : BitVec 2 := 1
def swingVertical : BitVec 2 := 2
def swingHorizontal : BitVec 2 := 3

/-! The defaults of the open parameters (spec/00_scope.md R8; log 1 and log 2). -/

/-- The default MATCH: 4·observed ≥ 3·expected and 4·observed ≤ 5·expected. -/
def defaultMatch : MatchRule := .ratio 4 3 5

/-- The default BLADE_CODE (spec/45_blade.md R211). -/
def defaultBladeCodes : BladeTable (BitVec 4) where
  stop := 0x0
  full := 0x1
  l1 := 0x2
  l2 := 0x3
  l3 := 0x4
  l4 := 0x5
  l5 := 0x6
  low := 0x7
  mid := 0x9
  high := 0xB

/-- The default BLADE_NEXT, column vertical = 0 (spec/45_blade.md R212). -/
def defaultBladeNextStill : BladeTable BladePos where
  stop := .l1
  full := .stop
  l1 := .l2
  l2 := .l3
  l3 := .l4
  l4 := .l5
  l5 := .stop
  low := .stop
  mid := .stop
  high := .stop

/-- The default BLADE_NEXT, column vertical = 1 (spec/45_blade.md R212). -/
def defaultBladeNextVertical : BladeTable BladePos where
  stop := .full
  full := .low
  l1 := .full
  l2 := .full
  l3 := .full
  l4 := .full
  l5 := .full
  low := .mid
  mid := .high
  high := .full

/-- The parameters State.reset carries: the spec's defaults, and BASE = 0.
DESIGN CHOICE (log 2), unsafe: R8 gives BASE no default; nothing depends on it (spec/20_memory.md R61). -/
def defaultParams : Params where
  base := 0
  matchRule := defaultMatch
  fieldOrder := .byIndex
  constOrder := .byIndex
  bladeCodes := defaultBladeCodes
  bladeNextStill := defaultBladeNextStill
  bladeNextVertical := defaultBladeNextVertical

end Sys2Proof.Machine
end

