-- ==== Sys2Proof/Machine/Params.lean ====
section
/-! DEFINITION. What the open parameters mean: MATCH, BLADE_CODE and BLADE_NEXT as functions, and which
parameters are conformant (spec/00_scope.md R8, spec/20_memory.md R61, spec/45_blade.md R211). -/

namespace Sys2Proof.Machine

/-- MATCH(observed_us, expected_us) (spec/00_scope.md R8). -/
def matchAccepts (m : MatchRule) (observed expected : Nat) : Bool :=
  match m with
  | .ratio den lo hi =>
    decide (lo * expected ≤ den * observed) && decide (den * observed ≤ hi * expected)
  | .windows rows =>
    rows.any fun r => decide (r.expected = expected) && decide (r.lo ≤ observed) && decide (observed ≤ r.hi)

/-- The entry of a table for one blade position. -/
def bladeEntry {α : Type} (t : BladeTable α) : BladePos → α
  | .stop => t.stop
  | .full => t.full
  | .l1 => t.l1
  | .l2 => t.l2
  | .l3 => t.l3
  | .l4 => t.l4
  | .l5 => t.l5
  | .low => t.low
  | .mid => t.mid
  | .high => t.high

/-- The ten positions, in the order of spec/45_blade.md R211. -/
def bladePositions : List BladePos :=
  [.stop, .full, .l1, .l2, .l3, .l4, .l5, .low, .mid, .high]

/-- BLADE_CODE (spec/45_blade.md R211). -/
def bladeCode (p : Params) (b : BladePos) : BitVec 4 := bladeEntry p.bladeCodes b

/-- BLADE_NEXT(pos, vertical) (spec/45_blade.md R212). -/
def bladeNext (p : Params) (b : BladePos) (vertical : Bool) : BladePos :=
  if vertical then bladeEntry p.bladeNextVertical b else bladeEntry p.bladeNextStill b

/-- The position whose BLADE_CODE is the given code, if there is one (spec/45_blade.md R215). A conformant
BLADE_CODE has at most one; where it has more the first of R211's order is taken (DESIGN CHOICE, log 9). -/
def bladeOfCode (p : Params) (code : BitVec 4) : Option BladePos :=
  bladePositions.find? fun b => bladeCode p b == code

/-- The durations MATCH is asked about: those of the header and the bit symbols (spec/00_scope.md R6). -/
def matchConstants : List Nat := [hdrMark, hdrSpace, bitMark, oneSpace, zeroSpace]

/-- What R8 asks of MATCH: it accepts each constant for itself, and neither bit space for the other. -/
def matchConformant (m : MatchRule) : Bool :=
  matchConstants.all (fun x => matchAccepts m x x) &&
    !matchAccepts m oneSpace zeroSpace && !matchAccepts m zeroSpace oneSpace

/-- BLADE_CODE is injective (spec/45_blade.md R211). -/
def bladeCodesInjective (p : Params) : Bool :=
  bladePositions.all fun a => bladePositions.all fun b =>
    !(bladeCode p a == bladeCode p b) || decide (a = b)

/-- Conformant parameters (spec/00_scope.md R8, spec/20_memory.md R61, spec/45_blade.md R211). -/
def paramsConformant (p : Params) : Bool :=
  decide (p.base % 64 = 0) && matchConformant p.matchRule && bladeCodesInjective p

end Sys2Proof.Machine
end

