-- ==== Sys2Proof/Machine/State.lean ====
section
/-! DEFINITION. The state of the block as plain data, every piece of spec/10_state.md R30, with the two output
streams, the host's pending accesses and the parameters beside it, and State.reset
(spec/70_reset_and_hazards.md R261). The block has no memory of its own (spec/20_memory.md R60), so State
holds no list of memory cells. -/

namespace Sys2Proof.Machine

/-- CTRL.VARIANT as the sum type the source asks for (spec/10_state.md R32). -/
inductive Variant where
  /-- VARIANT = 0, the compact stream. -/
  | a
  /-- VARIANT = 1, the framed variant. -/
  | b
  deriving DecidableEq, Repr

/-- STATUS.ERR (spec/60_exceptions.md R231). Codes 5-15 are never produced, and none can be built
(DESIGN CHOICE, log 11). -/
inductive ErrCode where
  | none
  | illegalCmd
  | badOperand
  | uninit
  | badTemp
  deriving DecidableEq, Repr

/-- STATUS.REASON (spec/60_exceptions.md R236). Codes 6 and 7 are never produced, and neither can be built
(DESIGN CHOICE, log 11). -/
inductive Reason where
  | none
  | header
  | symbol
  | pad
  | const
  | hdrByte
  deriving DecidableEq, Repr

/-- The fields of STATUS (spec/10_state.md R37). The reserved bits hold nothing. -/
structure Status where
  err : ErrCode
  acc : Bool
  reason : Reason
  cv : Bool
  tv : Bool
  rxovf : Bool
  errseen : Bool
  deriving DecidableEq, Repr

/-- The fields of CLIMATE (spec/10_state.md R38). Each holds what was last written, a reserved enumeration
value too. -/
structure Climate where
  mode : BitVec 3
  fan : BitVec 4
  swing : BitVec 2
  deriving DecidableEq, Repr

/-- The field record (spec/10_state.md R39, R48). FLAGS bit 0 is power, 1 swing, 2 sleep, 3 turbo, 4 light,
5 tree-icon, 6 blow. -/
structure ProtocolFields where
  modeCode : BitVec 3
  fanCode : BitVec 2
  tempCode : BitVec 5
  csum : BitVec 4
  blade : BitVec 4
  flags : BitVec 7
  deriving DecidableEq, Repr

/-- One item of the capture buffer: a mark and a space of 16 bits, in microseconds (spec/10_state.md R41). -/
structure Pulse where
  mark : BitVec 16
  space : BitVec 16
  deriving DecidableEq, Repr

/-- One item of a transmission, with its duration in microseconds (spec/10_state.md R44). -/
inductive Item where
  | mark (us : Nat)
  | space (us : Nat)
  deriving DecidableEq, Repr

/-- One element of TXQ, `Tx(carrier_hz, items)` (spec/10_state.md R44). -/
structure Transmission where
  carrier : Nat
  items : List Item
  deriving DecidableEq, Repr

/-- One element of PUBQ, `(MODE, FAN, SWING, TARGET)` (spec/10_state.md R45). -/
structure Published where
  mode : BitVec 3
  fan : BitVec 4
  swing : BitVec 2
  target : Word
  deriving DecidableEq, Repr

/-- The registers of the window (spec/10_state.md R31); `unmapped` is offset 0x2C. -/
inductive Reg where
  | ctrl | cmd | arg | result | status | climate | target | fields
  | blade | rxpush | rxlen | unmapped | rawb0 | rawb1 | rawb2 | rawb3
  deriving DecidableEq, Repr

/-- The width of a host access, in bits (spec/20_memory.md R62). -/
inductive AccessWidth where
  | bits8
  | bits16
  | bits32
  deriving DecidableEq, Repr

/-- What the outside can do to the block between two steps: a read or a write of the host's address space
(spec/20_memory.md R60, R65), or the platform's reset (spec/70_reset_and_hazards.md R260). -/
inductive Input where
  | read (addr : Nat) (width : AccessWidth)
  | write (addr : Nat) (width : AccessWidth) (value : Word)
  | reset
  deriving DecidableEq, Repr

/-- Why a step has no next state. Both are about the host's access, never about a command: every command word
has a defined result (spec/60_exceptions.md R249). -/
inductive Fault where
  /-- Raised by `serveAccess` for a window access that is not 32 bits wide at a multiple of 4. The spec gives
  it no step, "the host is stuck" (spec/20_memory.md R62). Safe. -/
  | notAdmitted
  /-- Raised by `serveAccess` for an address outside BASE .. BASE+0x3F, which is no address of the block
  (spec/20_memory.md R60; DESIGN CHOICE, log 7). Safe. -/
  | outsideWindow
  deriving DecidableEq, Repr

/-- Why an instruction has no meaning. -/
inductive Refusal where
  /-- Raised by an arm of `exec` whose instruction has no meaning yet. No arm does. Safe. -/
  | notModelled (mnemonic : String)
  deriving DecidableEq, Repr

/-- The machine: the block's own state (spec/10_state.md R30), the environment's streams (R44, R45), what the
host has read, the host's pending accesses, and the open parameters (spec/00_scope.md R8). -/
structure State where
  /-- CTRL.VARIANT (R32). -/
  variant : Variant
  /-- ARG (R35). -/
  arg : Word
  /-- RESULT (R36). -/
  result : Word
  /-- STATUS with the valid flags CV and TV and the overflow flag (R37). -/
  status : Status
  /-- CLIMATE (R38). -/
  climate : Climate
  /-- TARGET, a binary32 (R42). -/
  target : Word
  /-- FIELDS (R39). -/
  fields : ProtocolFields
  /-- The blade state behind BLADE (R40). -/
  blade : BladePos
  /-- The capture buffer RXCAP, oldest pair first (R41). -/
  rxcap : List Pulse
  /-- RAWB0, received bytes 0-3 (R46). -/
  rawb0 : Word
  /-- RAWB1, received bytes 4-7. -/
  rawb1 : Word
  /-- RAWB2, received bytes 8-11. -/
  rawb2 : Word
  /-- RAWB3, received bytes 12-15. -/
  rawb3 : Word
  /-- TXQ, oldest transmission first: the environment's (R44). -/
  txq : List Transmission
  /-- PUBQ, oldest element first: the environment's (R45). -/
  pubq : List Published
  /-- The values the host's reads returned, oldest first: the model's own field (DESIGN CHOICE, log 5). -/
  reads : List Word
  /-- The host's accesses and the platform's resets still to come, next first: the model's own field
  (DESIGN CHOICE, log 4). -/
  inputs : List Input
  /-- The open parameters: no step changes them (DESIGN CHOICE, log 1). -/
  params : Params
  deriving DecidableEq, Repr

/-- STATUS after reset, 0x00000000 (spec/10_state.md R37). -/
def Status.reset : Status where
  err := .none
  acc := false
  reason := .none
  cv := false
  tv := false
  rxovf := false
  errseen := false

/-- CLIMATE after reset, 0x00000000 (spec/10_state.md R38). -/
def Climate.reset : Climate where
  mode := 0
  fan := 0
  swing := 0

/-- The zero record (spec/10_state.md R48), FIELDS after reset (R39). -/
def ProtocolFields.zero : ProtocolFields where
  modeCode := 0
  fanCode := 0
  tempCode := 0
  csum := 0
  blade := 0
  flags := 0

/-- The machine right after power-on: the block as spec/70_reset_and_hazards.md R261 gives it, both streams
empty (R262), no access pending and nothing read, the parameters at the spec's defaults (DESIGN CHOICE, logs 1, 2,
4 and 5). -/
def State.reset : State where
  variant := .a
  arg := 0
  result := 0
  status := .reset
  climate := .reset
  target := 0
  fields := .zero
  blade := .stop
  rxcap := []
  rawb0 := 0
  rawb1 := 0
  rawb2 := 0
  rawb3 := 0
  txq := []
  pubq := []
  reads := []
  inputs := []
  params := defaultParams

end Sys2Proof.Machine
end

