-- ==== Sys2Proof/Machine/Layout.lean ====
section
/-! DEFINITION. The register layouts of spec/10_state.md R31-R46: the 32-bit word each register reads as, and
what a written word stores. A word is its fields set side by side, the last at bit 0, and zero-extended
(zext_32, spec/00_scope.md R10). Reserved bits read as 0 and a write to them is ignored (R31). -/

namespace Sys2Proof.Machine

/-- A flag as a 1-bit field. -/
def bit (b : Bool) : BitVec 1 := BitVec.ofBool b

/-- CTRL: VARIANT[0] (spec/10_state.md R32). -/
def ctrlWord (v : Variant) : Word :=
  match v with
  | .a => 0
  | .b => 1

/-- What a write to CTRL stores (spec/10_state.md R32). -/
def variantOfWord (w : Word) : Variant := if w.getLsbD 0 then .b else .a

/-- The codes of STATUS.ERR (spec/60_exceptions.md R231). -/
def errCode : ErrCode → BitVec 4
  | .none => 0
  | .illegalCmd => 1
  | .badOperand => 2
  | .uninit => 3
  | .badTemp => 4

/-- The codes of STATUS.REASON (spec/60_exceptions.md R236). -/
def reasonCode : Reason → BitVec 3
  | .none => 0
  | .header => 1
  | .symbol => 2
  | .pad => 3
  | .const => 4
  | .hdrByte => 5

/-- STATUS: ERR[3:0], ACC[4], REASON[10:8], CV[16], TV[17], RXOVF[18], ERRSEEN[24] (spec/10_state.md R37). -/
def statusWord (s : Status) : Word :=
  (bit s.errseen ++ 0#5 ++ bit s.rxovf ++ bit s.tv ++ bit s.cv ++ 0#5 ++ reasonCode s.reason ++ 0#3 ++
    bit s.acc ++ errCode s.err).setWidth 32

/-- CLIMATE: MODE[2:0], FAN[7:4], SWING[9:8] (spec/10_state.md R38). -/
def climateWord (c : Climate) : Word :=
  (c.swing ++ c.fan ++ 0#1 ++ c.mode).setWidth 32

/-- What a write to CLIMATE stores (spec/10_state.md R38). -/
def climateOfWord (w : Word) : Climate where
  mode := w.extractLsb' 0 3
  fan := w.extractLsb' 4 4
  swing := w.extractLsb' 8 2

/-- FIELDS: MODE_CODE[2:0], FAN_CODE[5:4], TEMP_CODE[12:8], CSUM[19:16], BLADE[23:20], FLAGS[30:24]
(spec/10_state.md R39). -/
def fieldsWord (f : ProtocolFields) : Word :=
  (f.flags ++ f.blade ++ f.csum ++ 0#3 ++ f.tempCode ++ 0#2 ++ f.fanCode ++ 0#1 ++ f.modeCode).setWidth 32

/-- What a write to FIELDS stores (spec/10_state.md R39). -/
def fieldsOfWord (w : Word) : ProtocolFields where
  modeCode := w.extractLsb' 0 3
  fanCode := w.extractLsb' 4 2
  tempCode := w.extractLsb' 8 5
  csum := w.extractLsb' 16 4
  blade := w.extractLsb' 20 4
  flags := w.extractLsb' 24 7

/-- BLADE: CODE[3:0] = BLADE_CODE(blade) (spec/10_state.md R40). -/
def bladeWord (p : Params) (b : BladePos) : Word := (bladeCode p b).setWidth 32

/-- RXLEN: COUNT[15:0] = len(RXCAP) (spec/10_state.md R41). -/
def rxlenWord (cap : List Pulse) : Word := (BitVec.ofNat 16 cap.length).setWidth 32

/-- The pair a write to RXPUSH pushes: mark = v[15:0], space = v[31:16] (spec/10_state.md R41). -/
def pulseOfWord (w : Word) : Pulse where
  mark := w.extractLsb' 0 16
  space := w.extractLsb' 16 16

/-- Four received bytes as a RAWB register, byte k in bits [8k+7:8k] (spec/10_state.md R46,
spec/20_memory.md R66). -/
def rawWord (b0 b1 b2 b3 : Byte) : Word := (b3 ++ b2 ++ b1 ++ b0).setWidth 32

/-- The register at a word-aligned offset of the window (spec/10_state.md R31). -/
def regAt (off : Nat) : Reg :=
  match off with
  | 0x00 => .ctrl
  | 0x04 => .cmd
  | 0x08 => .arg
  | 0x0C => .result
  | 0x10 => .status
  | 0x14 => .climate
  | 0x18 => .target
  | 0x1C => .fields
  | 0x20 => .blade
  | 0x24 => .rxpush
  | 0x28 => .rxlen
  | 0x30 => .rawb0
  | 0x34 => .rawb1
  | 0x38 => .rawb2
  | 0x3C => .rawb3
  | _ => .unmapped

/-- The offset of a register from BASE (spec/10_state.md R31). -/
def regOffset : Reg → Nat
  | .ctrl => 0x00
  | .cmd => 0x04
  | .arg => 0x08
  | .result => 0x0C
  | .status => 0x10
  | .climate => 0x14
  | .target => 0x18
  | .fields => 0x1C
  | .blade => 0x20
  | .rxpush => 0x24
  | .rxlen => 0x28
  | .unmapped => 0x2C
  | .rawb0 => 0x30
  | .rawb1 => 0x34
  | .rawb2 => 0x38
  | .rawb3 => 0x3C

/-- What a read returns (spec/10_state.md R31; spec/20_memory.md R63 for CMD, RXPUSH and 0x2C). -/
def readReg (r : Reg) (s : State) : Word :=
  match r with
  | .ctrl => ctrlWord s.variant
  | .cmd => 0
  | .arg => s.arg
  | .result => s.result
  | .status => statusWord s.status
  | .climate => climateWord s.climate
  | .target => s.target
  | .fields => fieldsWord s.fields
  | .blade => bladeWord s.params s.blade
  | .rxpush => 0
  | .rxlen => rxlenWord s.rxcap
  | .unmapped => 0
  | .rawb0 => s.rawb0
  | .rawb1 => s.rawb1
  | .rawb2 => s.rawb2
  | .rawb3 => s.rawb3

end Sys2Proof.Machine
end

