-- ==== Sys2Proof/Machine/Flags.lean ====
section
/-! DEFINITION. Every computation of a STATUS field (spec/10_state.md R37), as an update of the STATUS record. -/

namespace Sys2Proof.Machine

/-- STATUS after an error: ERR is its code and ERRSEEN is set; nothing else changes (spec/00_scope.md R16,
spec/60_exceptions.md R240). -/
def statusRaised (code : ErrCode) (s : Status) : Status :=
  { s with err := code, errseen := true }

/-- STATUS after a command that completed: ERR is 0; ERRSEEN stays (spec/46_control.md R224,
spec/60_exceptions.md R241). -/
def statusCompleted (s : Status) : Status :=
  { s with err := .none }

/-- STATUS after a rejected frame: ACC = 0 and REASON is the reason (spec/42_frame_decoder.md R164). -/
def statusRejected (reason : Reason) (s : Status) : Status :=
  { s with acc := false, reason := reason }

/-- STATUS after a recognized frame: ACC = 1 and REASON = 0 (spec/42_frame_decoder.md R157). -/
def statusAccepted (s : Status) : Status :=
  { s with acc := true, reason := .none }

/-- CLIMATE has been written (spec/10_state.md R37, R38). -/
def statusClimateValid (s : Status) : Status :=
  { s with cv := true }

/-- TARGET has been written (spec/10_state.md R37, R42). -/
def statusTargetValid (s : Status) : Status :=
  { s with tv := true }

/-- A push to a full capture buffer was dropped (spec/10_state.md R41). -/
def statusOverflowed (s : Status) : Status :=
  { s with rxovf := true }

/-- RXCLR clears RXOVF (spec/42_frame_decoder.md R168). -/
def statusOverflowCleared (s : Status) : Status :=
  { s with rxovf := false }

end Sys2Proof.Machine
end

