-- ==== Sys2Proof/Machine/Ops.lean ====
section
/-! DEFINITION. The named operations on the block's state: an error and the end of a command (the block's
replacements for taking an exception and returning from one, spec/60_exceptions.md R240, R241), the output
streams, the capture buffer, the stores of the register window and reset. -/

namespace Sys2Proof.Machine

/-- `raise Error(code)`: the one way a command reports an error (spec/00_scope.md R16, spec/60_exceptions.md
R240). STATUS.ERR is the code, ERRSEEN is set, and nothing else changes: no state is saved, no mode changes,
control goes nowhere. -/
def raise (code : ErrCode) (s : State) : State :=
  { s with status := statusRaised code s.status }

/-- The last act of a command that completes: STATUS.ERR <- 0 (spec/46_control.md R224). It is also how an
error is left (spec/60_exceptions.md R241). -/
def complete (s : State) : State :=
  { s with status := statusCompleted s.status }

/-- RESULT <- v (spec/10_state.md R36). -/
def setResult (v : Word) (s : State) : State :=
  { s with result := v }

/-- FIELDS <- rec (spec/10_state.md R39). -/
def setFields (rec : ProtocolFields) (s : State) : State :=
  { s with fields := rec }

/-- The blade state takes a new position (spec/45_blade.md R213). -/
def setBlade (b : BladePos) (s : State) : State :=
  { s with blade := b }

/-- `open(); carrier(CARRIER_HZ); …; perform()`: one element on TXQ with the items the calls between
appended, verbatim (spec/00_scope.md R13, spec/20_memory.md R70). -/
def transmit (items : List Item) (s : State) : State :=
  { s with txq := s.txq ++ [{ carrier := carrierHz, items := items }] }

/-- `publish(st)`: one element on PUBQ (spec/00_scope.md R16, spec/10_state.md R45). -/
def publish (p : Published) (s : State) : State :=
  { s with pubq := s.pubq ++ [p] }

/-- The four climate values written, CV and TV set and the values published, in one step
(spec/42_frame_decoder.md R157, spec/43_semantic_mapper.md R193). -/
def commitClimate (p : Published) (s : State) : State :=
  publish p
    { s with
      climate := { mode := p.mode, fan := p.fan, swing := p.swing }
      target := p.target
      status := statusTargetValid (statusClimateValid s.status) }

/-- RAWB0..RAWB3 <- b[0..15] (spec/10_state.md R46, spec/42_frame_decoder.md R162). -/
def setRawBytes (b : List Byte) (s : State) : State :=
  { s with
    rawb0 := rawWord (b.getD 0 0) (b.getD 1 0) (b.getD 2 0) (b.getD 3 0)
    rawb1 := rawWord (b.getD 4 0) (b.getD 5 0) (b.getD 6 0) (b.getD 7 0)
    rawb2 := rawWord (b.getD 8 0) (b.getD 9 0) (b.getD 10 0) (b.getD 11 0)
    rawb3 := rawWord (b.getD 12 0) (b.getD 13 0) (b.getD 14 0) (b.getD 15 0) }

/-- A push to RXCAP: the pair is appended if the buffer has room, else it is dropped and RXOVF set
(spec/10_state.md R41). -/
def pushCapture (p : Pulse) (s : State) : State :=
  if s.rxcap.length < rxcapMax then { s with rxcap := s.rxcap ++ [p] }
  else { s with status := statusOverflowed s.status }

/-- RXCAP <- []; RXOVF <- 0 (spec/42_frame_decoder.md R168). -/
def clearCapture (s : State) : State :=
  { s with rxcap := [], status := statusOverflowCleared s.status }

/-- `reject(reason)` ends a receive attempt with "not recognized", a completed command
(spec/00_scope.md R16, spec/42_frame_decoder.md R164). -/
def rejectFrame (reason : Reason) (s : State) : State :=
  complete { s with status := statusRejected reason s.status }

/-- The effect of a write to a register other than CMD (spec/20_memory.md R65, R63): CTRL, ARG and FIELDS store;
CLIMATE and TARGET store and become valid; RXPUSH pushes; the read-only registers and 0x2C ignore it. CMD holds
nothing: its effect is the command, run by `writeReg`. -/
def storeReg (r : Reg) (v : Word) (s : State) : State :=
  match r with
  | .ctrl => { s with variant := variantOfWord v }
  | .cmd => s
  | .arg => { s with arg := v }
  | .result => s
  | .status => s
  | .climate => { s with climate := climateOfWord v, status := statusClimateValid s.status }
  | .target => { s with target := v, status := statusTargetValid s.status }
  | .fields => { s with fields := fieldsOfWord v }
  | .blade => s
  | .rxpush => pushCapture (pulseOfWord v) s
  | .rxlen => s
  | .unmapped => s
  | .rawb0 => s
  | .rawb1 => s
  | .rawb2 => s
  | .rawb3 => s

/-- The platform's reset (spec/70_reset_and_hazards.md R260-R262): every piece of the block's state takes its
reset value; the streams and what is outside the block (the host's reads and coming accesses, the parameters)
stay. -/
def applyReset (s : State) : State :=
  { State.reset with
    txq := s.txq
    pubq := s.pubq
    reads := s.reads
    inputs := s.inputs
    params := s.params }

end Sys2Proof.Machine
end

