-- ==== Sys2Proof/Machine/Codec.lean ====
section
/-! DEFINITION. The four functions of the Bit Codec (spec/40_bit_codec.md R110-R113) and the header and trailer
(spec/30_encoding.md R85, R86). An emission is the list of items it appends to the open pulse sequence
(spec/00_scope.md R13). -/

namespace Sys2Proof.Machine

/-- BY_INDEX: symbol i of the list is bit i of the value (spec/30_encoding.md R93). -/
def byIndex : List Bool → Nat
  | [] => 0
  | s :: rest => s.toNat + 2 * byIndex rest

/-- MSB_FIRST: the first symbol is the most significant bit (spec/30_encoding.md R93). -/
def msbFirst (s : List Bool) : Nat := byIndex s.reverse

/-- The value of a field under an assembly order (spec/30_encoding.md R93). -/
def assemble (order : AccumOrder) (s : List Bool) : Nat :=
  match order with
  | .byIndex => byIndex s
  | .msbFirst => msbFirst s

/-- Bit i of `reverseBits(value, length)` (spec/40_bit_codec.md R110). -/
def reversedBit (value : Word) (length i : Nat) : Bool :=
  if i < length then value.getLsbD (length - 1 - i) else value.getLsbD i

/-- `reverseBits(value, length)`: the low `length` bits reversed, the others kept (spec/40_bit_codec.md R110). -/
def reverseBits (value : Word) (length : Nat) : Word :=
  BitVec.ofNat 32 (byIndex ((List.range 32).map (reversedBit value length)))

/-- One bit symbol (spec/30_encoding.md R85). -/
def symbolItems (b : Bool) : List Item :=
  [.mark bitMark, .space (if b then oneSpace else zeroSpace)]

/-- `emitBit(value)`: the symbol of value[0] (spec/40_bit_codec.md R111). -/
def emitBit (value : Word) : List Item := symbolItems (value.getLsbD 0)

/-- `emitBits(value, length)`: the low `length` bits, most significant first (spec/40_bit_codec.md R112). -/
def emitBits (value : Word) : Nat → List Item
  | 0 => []
  | n + 1 => emitBit (value >>> n) ++ emitBits value n

/-- `emitReversedBits(value, length)` (spec/40_bit_codec.md R113). -/
def emitReversedBits (value : Word) (length : Nat) : List Item :=
  emitBits (reverseBits value length) length

/-- The header that opens every frame (spec/30_encoding.md R86). -/
def headerItems : List Item := [.mark hdrMark, .space hdrSpace]

/-- The trailer that closes every transmitted frame (spec/30_encoding.md R86). -/
def trailerItems : List Item := [.mark zeroSpace, .space hdrSpace, .mark zeroSpace]

end Sys2Proof.Machine
end

