-- ==== Sys2Proof/Machine/Binary32.lean ====
section
/-! DEFINITION. The IEEE 754 binary32 format of TARGET, and the exact clamp and round of the mapper
(spec/00_scope.md R15; PRESUMED by the spec itself: G1 and G4 of spec/93_implementation_defined.md; log 8).
A finite value is held exactly, as an integer count of 2^-149, the smallest binary32 step. -/

namespace Sys2Proof.Machine

/-- A binary32 value, read exactly. -/
inductive Binary32 where
  | nan
  | inf (negative : Bool)
  /-- The value `units * 2^-149`. -/
  | finite (units : Int)
  deriving DecidableEq, Repr

/-- One degree in units of 2^-149. -/
def oneDegree : Nat := 2 ^ 149

/-- The magnitude, in units of 2^-149, of the binary32 with this biased exponent (below 255) and fraction. -/
def binary32Magnitude (exponent fraction : Nat) : Nat :=
  if exponent = 0 then fraction else (2 ^ 23 + fraction) * 2 ^ (exponent - 1)

/-- The value of a 32-bit pattern (spec/00_scope.md R15): sign [31], biased exponent [30:23], fraction
[22:0]. -/
def binary32 (w : Word) : Binary32 :=
  let exponent := (w.extractLsb' 23 8).toNat
  let fraction := (w.extractLsb' 0 23).toNat
  if exponent = 255 then
    if fraction = 0 then .inf (w.getLsbD 31) else .nan
  else if w.getLsbD 31 then .finite (-(binary32Magnitude exponent fraction : Int))
  else .finite (binary32Magnitude exponent fraction)

/-- isNaN(x): any NaN encoding (spec/00_scope.md R15). -/
def isNaN (w : Word) : Bool := decide (binary32 w = .nan)

/-- clamp(x, lo, hi), evaluated exactly (spec/00_scope.md R15). A NaN has no clamp (DESIGN CHOICE, log 12). -/
def clampUnits (lo hi : Int) : Binary32 → Option Int
  | .nan => none
  | .inf true => some lo
  | .inf false => some hi
  | .finite x => some (if x < lo then lo else if hi < x then hi else x)

/-- round(x) of a count of units, in whole degrees: to the nearest integer, ties away from zero
(spec/00_scope.md R15). -/
def roundUnits (x : Int) : Int :=
  if 0 ≤ x then (2 * x + oneDegree) / (2 * oneDegree)
  else -((2 * (-x) + oneDegree) / (2 * oneDegree))

/-- The binary32 encoding of a natural number below 2^24. -/
def binary32OfNat (n : Nat) : Word :=
  if n = 0 then 0
  else BitVec.ofNat 32 ((127 + n.log2) * 2 ^ 23 + (n - 2 ^ n.log2) * 2 ^ (23 - n.log2))

end Sys2Proof.Machine
end

