-- ==== Sys2Proof/Machine/Mapping.lean ====
section
/-! DEFINITION. The functions of the Semantic Mapper (spec/43_semantic_mapper.md R180-R191) and the Checksum
(spec/44_checksum.md R200, R201). -/

namespace Sys2Proof.Machine

/-- `compute(tempCode, modeCode)` (spec/44_checksum.md R200). -/
def computeChecksum (tempCode modeCode : Nat) : BitVec 4 :=
  BitVec.ofNat 4 ((tempCode + modeCode + 2) % 16)

/-- `encMode` (spec/43_semantic_mapper.md R180): OFF, AUTO and the reserved 7 are unmapped and encode to 0. -/
def encMode (m : BitVec 3) : BitVec 3 :=
  if m = modeHeatCool then 0
  else if m = modeCool then 1
  else if m = modeDry then 2
  else if m = modeFanOnly then 3
  else if m = modeHeat then 4
  else 0

/-- `encFan` (R181): every fan mode but LOW, MEDIUM and HIGH encodes to 0. -/
def encFan (f : BitVec 4) : BitVec 2 :=
  if f = fanAuto then 0
  else if f = fanLow then 1
  else if f = fanMedium then 2
  else if f = fanHigh then 3
  else 0

/-- `encSwing` (R182): 1 for VERTICAL only. -/
def encSwing (s : BitVec 2) : Bool := s == swingVertical

/-- `encTemp` (R183): round(clamp(t, MIN_TEMP, MAX_TEMP) - MIN_TEMP), exact. None for a NaN, which has no code
(spec/60_exceptions.md R235; DESIGN CHOICE, log 12). -/
def encTemp (t : Word) : Option (BitVec 5) :=
  (clampUnits (minTemp * oneDegree) (maxTemp * oneDegree) (binary32 t)).map fun x =>
    BitVec.ofInt 5 (roundUnits (x - minTemp * oneDegree))

/-- `power` (R184): 1 unless the mode is OFF. -/
def powerBit (m : BitVec 3) : Bool := m != modeOff

/-- A FLAGS field from its seven flags, bit 0 first (spec/10_state.md R39). -/
def packFlags (power swing sleep turbo light tree blow : Bool) : BitVec 7 :=
  bit blow ++ bit tree ++ bit light ++ bit turbo ++ bit sleep ++ bit swing ++ bit power

/-- FLAGS[0] of a record. -/
def powerFlag (r : ProtocolFields) : Bool := r.flags.getLsbD 0

/-- FLAGS[1] of a record. -/
def swingFlag (r : ProtocolFields) : Bool := r.flags.getLsbD 1

/-- `encodeRecord(CLIMATE, TARGET)` (R190). None for a NaN target. -/
def encodeRecord (c : Climate) (t : Word) : Option ProtocolFields :=
  (encTemp t).map fun code =>
    { modeCode := encMode c.mode
      fanCode := encFan c.fan
      tempCode := code
      csum := computeChecksum code.toNat (encMode c.mode).toNat
      blade := 0
      flags := packFlags (powerBit c.mode) (encSwing c.swing) false false false false false }

/-- `verify(received)` against the given climate state (spec/44_checksum.md R201): the whole value is compared.
None for a NaN target. -/
def verifyChecksum (received : Word) (c : Climate) (t : Word) : Option Bool :=
  (encTemp t).map fun code =>
    received == (computeChecksum code.toNat (encMode c.mode).toNat).setWidth 32

/-- `decMode` (R185): 5, 6 and 7 decode to HEAT_COOL. -/
def decMode (code : BitVec 3) : BitVec 3 :=
  if code = 1 then modeCool
  else if code = 2 then modeDry
  else if code = 3 then modeFanOnly
  else if code = 4 then modeHeat
  else modeHeatCool

/-- `decFan` (R186). -/
def decFan (code : BitVec 2) : BitVec 4 :=
  if code = 1 then fanLow
  else if code = 2 then fanMedium
  else if code = 3 then fanHigh
  else fanAuto

/-- `decSwing` (R187). -/
def decSwing (f : Bool) : BitVec 2 := if f then swingVertical else swingOff

/-- `decTemp` (R188): the binary32 value of code + MIN_TEMP, no clamp. -/
def decTemp (code : BitVec 5) : Word := binary32OfNat (code.toNat + minTemp)

/-- `decodeRecord(rec)` (R191), with the power override of R189 after `decMode`. -/
def decodeRecord (r : ProtocolFields) : Published where
  mode := if powerFlag r then decMode r.modeCode else modeOff
  fan := decFan r.fanCode
  swing := decSwing (swingFlag r)
  target := decTemp r.tempCode

end Sys2Proof.Machine
end

