-- ==== Sys2Proof/Machine/Operands.lean ====
section
/-! DEFINITION. Every operand form of the commands: LEN (spec/30_encoding.md R81), the sub-fields of ARG
(spec/44_checksum.md R202, spec/45_blade.md R215) and the climate state with its checks (spec/10_state.md
R43). -/

namespace Sys2Proof.Machine

/-- The LEN operand of REV, EMITN and EMITR: BAD_OPERAND where it exceeds W = 32 (spec/30_encoding.md R81,
spec/60_exceptions.md R233), else the command's effect. -/
def withLength (len : Nat) (effect : State → State) (s : State) : State :=
  if maxLen < len then raise .badOperand s else complete (effect s)

/-- CSUM's tempCode = ARG[7:0] (spec/44_checksum.md R202). -/
def argTempCode (arg : Word) : BitVec 8 := arg.extractLsb' 0 8

/-- CSUM's modeCode = ARG[15:8] (R202). -/
def argModeCode (arg : Word) : BitVec 8 := arg.extractLsb' 8 8

/-- BLNEXT's code = ARG[3:0] (spec/45_blade.md R215). -/
def argBladeCode (arg : Word) : BitVec 4 := arg.extractLsb' 0 4

/-- BLNEXT's vertical = ARG[4] (R215). -/
def argVertical (arg : Word) : Bool := arg.getLsbD 4

/-- The checks of a command that reads CLIMATE and TARGET: UNINIT unless both have been written, then BAD_TEMP
where the operand computed from them has no value (a NaN), else the command's effect
(spec/10_state.md R43, spec/60_exceptions.md R234, R235, R238). -/
def withClimate {α : Type} (operand : Climate → Word → Option α) (effect : α → State → State)
    (s : State) : State :=
  if s.status.cv && s.status.tv then
    match operand s.climate s.target with
    | none => raise .badTemp s
    | some x => complete (effect x s)
  else raise .uninit s

end Sys2Proof.Machine
end

