-- ==== Sys2Proof/Machine/BitCodec.lean ====
section
/-! DEFINITION. The Bit Codec commands REV, EMITB, EMITN and EMITR (spec/40_bit_codec.md R116-R119). -/

namespace Sys2Proof.Machine

/-- REV: RESULT <- reverseBits(ARG, LEN) (spec/40_bit_codec.md R116). -/
def execRev (len : Nat) (s : State) : Host.Outcome State Fault Refusal :=
  .next (withLength len (setResult (reverseBits s.arg len)) s)

/-- EMITB: one transmission of the symbol of ARG[0] (R117). -/
def execEmitb (s : State) : Host.Outcome State Fault Refusal :=
  .next (complete (transmit (emitBit s.arg) s))

/-- EMITN: one transmission of the low LEN bits of ARG, most significant first (R118). -/
def execEmitn (len : Nat) (s : State) : Host.Outcome State Fault Refusal :=
  .next (withLength len (transmit (emitBits s.arg len)) s)

/-- EMITR: one transmission of the low LEN bits of ARG, reversed (R119). -/
def execEmitr (len : Nat) (s : State) : Host.Outcome State Fault Refusal :=
  .next (withLength len (transmit (emitReversedBits s.arg len)) s)

end Sys2Proof.Machine
end

