-- ==== Sys2Proof/Machine/Blade.lean ====
section
/-! DEFINITION. The blade command BLNEXT (spec/45_blade.md R215). -/

namespace Sys2Proof.Machine

/-- BLNEXT: RESULT <- the code after the position ARG names, the blade state untouched; BAD_OPERAND where ARG
names none (spec/45_blade.md R215). -/
def execBlnext (s : State) : Host.Outcome State Fault Refusal :=
  match bladeOfCode s.params (argBladeCode s.arg) with
  | none => .next (raise .badOperand s)
  | some p =>
    .next (complete
      (setResult (bladeWord s.params (bladeNext s.params p (argVertical s.arg))) s))

end Sys2Proof.Machine
end

