-- ==== Sys2Proof/Machine/Checksum.lean ====
section
/-! DEFINITION. The Checksum's commands CSUM and CSUMV (spec/44_checksum.md R202, R203). -/

namespace Sys2Proof.Machine

/-- CSUM: RESULT <- compute(ARG[7:0], ARG[15:8]) (spec/44_checksum.md R202). -/
def execCsum (s : State) : Host.Outcome State Fault Refusal :=
  .next (complete
    (setResult ((computeChecksum (argTempCode s.arg).toNat (argModeCode s.arg).toNat).setWidth 32) s))

/-- CSUMV: RESULT <- 1 if verify(ARG), else 0 (R203). -/
def execCsumv (s : State) : Host.Outcome State Fault Refusal :=
  .next (withClimate (verifyChecksum s.arg) (fun ok => setResult (if ok then 1 else 0)) s)

end Sys2Proof.Machine
end

