-- ==== Sys2Proof/Machine/Control.lean ====
section
/-! DEFINITION. The control commands: NOP (spec/46_control.md R221) and RXCLR (spec/42_frame_decoder.md R168). -/

namespace Sys2Proof.Machine

/-- NOP: only STATUS.ERR <- 0 (spec/46_control.md R221). -/
def execNop (s : State) : Host.Outcome State Fault Refusal := .next (complete s)

/-- RXCLR: empties RXCAP and clears RXOVF (spec/42_frame_decoder.md R168). -/
def execRxclr (s : State) : Host.Outcome State Fault Refusal := .next (complete (clearCapture s))

end Sys2Proof.Machine
end

