-- ==== Sys2Proof/Machine/Decoder.lean ====
section
/-! DEFINITION. The Frame Decoder: the receive primitive `expect` (spec/00_scope.md R14), the two received
layouts (spec/30_encoding.md R92, R94) and RX (spec/42_frame_decoder.md R150-R169). The cursor `pos` lives only
inside a receive attempt (spec/10_state.md R47): it is an argument here and no part of State. -/

namespace Sys2Proof.Machine

/-- How a piece of a receive attempt ends: with a value, or with "not recognized"; in both cases with the cursor
where it then stands. -/
inductive Scan (α : Type) where
  | found (value : α) (pos : Nat)
  | rejected (reason : Reason) (pos : Nat)
  deriving DecidableEq, Repr

/-- The next piece, from the cursor the first left; a reject ends the whole RX (spec/42_frame_decoder.md
R152). -/
def andThen {α β : Type} (x : Scan α) (k : α → Nat → Scan β) : Scan β :=
  match x with
  | .found v pos => k v pos
  | .rejected r pos => .rejected r pos

/-- Whether the pair under the cursor matches (spec/00_scope.md R14). A cursor at the end never matches. -/
def pairMatches (p : Params) (cap : List Pulse) (pos mark space : Nat) : Bool :=
  match cap[pos]? with
  | none => false
  | some x => matchAccepts p.matchRule x.mark.toNat mark && matchAccepts p.matchRule x.space.toNat space

/-- `expect(m, s)`: the cursor after a match, none (the cursor unchanged) without one (spec/00_scope.md R14). -/
def expect (p : Params) (cap : List Pulse) (pos mark space : Nat) : Option Nat :=
  if pairMatches p cap pos mark space then some (pos + 1) else none

/-- The header (spec/42_frame_decoder.md R153, R160). -/
def readHeader (p : Params) (cap : List Pulse) (pos : Nat) : Scan Unit :=
  match expect p cap pos hdrMark hdrSpace with
  | some pos' => .found () pos'
  | none => .rejected .header pos

/-- `readBit()`: a 1 is tried first, then a 0 (spec/42_frame_decoder.md R151). -/
def readBit (p : Params) (cap : List Pulse) (pos : Nat) : Scan Bool :=
  match expect p cap pos bitMark oneSpace with
  | some pos' => .found true pos'
  | none =>
    match expect p cap pos bitMark zeroSpace with
    | some pos' => .found false pos'
    | none => .rejected .symbol pos

/-- `n` symbols in reception order. -/
def readBits (p : Params) (cap : List Pulse) : Nat → Nat → Scan (List Bool)
  | 0, pos => .found [] pos
  | n + 1, pos =>
    andThen (readBit p cap pos) fun b pos =>
    andThen (readBits p cap n pos) fun rest pos =>
    .found (b :: rest) pos

/-- `readField(n, order)` (spec/42_frame_decoder.md R152). -/
def readField (p : Params) (cap : List Pulse) (n : Nat) (order : AccumOrder) (pos : Nat) : Scan Nat :=
  andThen (readBits p cap n pos) fun s pos => .found (assemble order s) pos

/-- `n` pad symbols: the first 1 rejects at once (spec/42_frame_decoder.md R154). -/
def readPad (p : Params) (cap : List Pulse) : Nat → Nat → Scan Unit
  | 0, pos => .found () pos
  | n + 1, pos =>
    andThen (readBit p cap pos) fun b pos =>
    if b then .rejected .pad pos else readPad p cap n pos

/-- `rxA()`: the Variant A layout in wire order (spec/42_frame_decoder.md R153-R156). -/
def rxA (p : Params) (cap : List Pulse) : Scan ProtocolFields :=
  andThen (readHeader p cap 0) fun _ pos =>
  andThen (readField p cap 3 p.fieldOrder pos) fun mode pos =>
  andThen (readBit p cap pos) fun power pos =>
  andThen (readField p cap 2 p.fieldOrder pos) fun fan pos =>
  andThen (readBit p cap pos) fun swing pos =>
  andThen (readBit p cap pos) fun sleep pos =>
  andThen (readField p cap 4 p.fieldOrder pos) fun temp pos =>
  andThen (readPad p cap 8 pos) fun _ pos =>
  andThen (readBit p cap pos) fun turbo pos =>
  andThen (readBit p cap pos) fun light pos =>
  andThen (readBit p cap pos) fun tree pos =>
  andThen (readBit p cap pos) fun blow pos =>
  andThen (readField p cap 11 p.constOrder pos) fun c pos =>
  if c = constARx then
    .found
      { modeCode := BitVec.ofNat 3 mode
        fanCode := BitVec.ofNat 2 fan
        tempCode := BitVec.ofNat 5 temp
        csum := 0
        blade := 0
        flags := packFlags power swing sleep turbo light tree blow }
      pos
  else .rejected .const pos

/-- What bytes 0..15 of a Variant B frame must be: HDR_B, then eleven bytes of any value
(spec/30_encoding.md R94). -/
def requiredBytes : List (Option Byte) := hdrB.map some ++ List.replicate 11 none

/-- The bytes of a Variant B frame, each first symbol the least significant bit (spec/30_encoding.md R95), each
compared as soon as its eighth symbol is read (spec/42_frame_decoder.md R161). -/
def readBytes (p : Params) (cap : List Pulse) : List (Option Byte) → Nat → Scan (List Byte)
  | [], pos => .found [] pos
  | required :: more, pos =>
    andThen (readBits p cap 8 pos) fun s pos =>
    let b := BitVec.ofNat 8 (byIndex s)
    if required.all (fun h => b == h) then
      andThen (readBytes p cap more pos) fun rest pos => .found (b :: rest) pos
    else .rejected .hdrByte pos

/-- `rxB()`: the Variant B layout (spec/42_frame_decoder.md R160). -/
def rxB (p : Params) (cap : List Pulse) : Scan (List Byte) :=
  andThen (readHeader p cap 0) fun _ pos => readBytes p cap requiredBytes pos

/-- `accept(rec)`: FIELDS, CLIMATE, TARGET, CV, TV, one published element, ACC and REASON in one step
(spec/42_frame_decoder.md R157). -/
def acceptFrame (r : ProtocolFields) (s : State) : State :=
  let s' := commitClimate (decodeRecord r) (setFields r s)
  complete { s' with status := statusAccepted s'.status }

/-- A Variant A receive attempt (spec/42_frame_decoder.md R153). -/
def receiveA (s : State) : State :=
  match rxA s.params s.rxcap with
  | .found r _ => acceptFrame r s
  | .rejected reason _ => rejectFrame reason s

/-- A Variant B receive attempt: the raw bytes are kept and the record is the zero record
(spec/42_frame_decoder.md R160, R162, R163). -/
def receiveB (s : State) : State :=
  match rxB s.params s.rxcap with
  | .found bytes _ => acceptFrame .zero (setRawBytes bytes s)
  | .rejected reason _ => rejectFrame reason s

/-- RX: the capture as one frame of the variant CTRL selects when the command starts
(spec/42_frame_decoder.md R150, spec/30_encoding.md R96). -/
def execRx (s : State) : Host.Outcome State Fault Refusal :=
  match s.variant with
  | .a => .next (receiveA s)
  | .b => .next (receiveB s)

end Sys2Proof.Machine
end

