-- ==== Sys2Proof/Machine/Encoder.lean ====
section
/-! DEFINITION. The Frame Encoder: the two transmitted layouts (spec/30_encoding.md R88, R90) and TX
(spec/41_frame_encoder.md R130-R139). -/

namespace Sys2Proof.Machine

/-- The items of a Variant A frame, field by field (spec/30_encoding.md R88, spec/41_frame_encoder.md R133).
`code` is the blade code after this frame's step. -/
def frameA (r : ProtocolFields) (code : BitVec 4) : List Item :=
  headerItems ++
  emitReversedBits (r.modeCode.setWidth 32) 3 ++
  symbolItems (powerFlag r) ++
  emitReversedBits (r.fanCode.setWidth 32) 2 ++
  symbolItems (swingFlag r) ++
  emitBit 0 ++
  emitReversedBits (r.tempCode.setWidth 32) 4 ++
  emitBits 0 8 ++
  emitBit 0 ++ emitBit 1 ++ emitBit 1 ++ emitBit 0 ++
  emitReversedBits constATx 11 ++
  emitReversedBits (code.setWidth 32) 4 ++
  emitBits 0 4 ++
  emitReversedBits thermoSel 2 ++
  emitBits 0 18 ++
  emitReversedBits (r.csum.setWidth 32) 4 ++
  trailerItems

/-- The items of a Variant B frame, field by field (spec/30_encoding.md R90, spec/41_frame_encoder.md R135). -/
def frameB (r : ProtocolFields) : List Item :=
  headerItems ++
  emitBits 0 24 ++
  emitBit 1 ++
  emitBits 0 32 ++
  symbolItems (!powerFlag r) ++
  emitBits 0 3 ++
  emitReversedBits (r.fanCode.setWidth 32) 2 ++
  emitBits 0 9 ++
  emitReversedBits (r.tempCode.setWidth 32) 5 ++
  emitReversedBits (r.modeCode.setWidth 32) 3 ++
  emitBits constB 8 ++
  emitBits 0 4 ++
  emitReversedBits (r.csum.setWidth 32) 4 ++
  trailerItems

/-- The record FIELDS holds after a Variant A transmission (spec/41_frame_encoder.md R134): sleep, turbo and
blow are 0, light and tree-icon 1. -/
def shownA (r : ProtocolFields) (code : BitVec 4) : ProtocolFields :=
  { r with
    blade := code
    flags := packFlags (powerFlag r) (swingFlag r) false false true true false }

/-- The record FIELDS holds after a Variant B transmission (R136). -/
def shownB (r : ProtocolFields) : ProtocolFields :=
  { r with
    blade := 0
    flags := packFlags (powerFlag r) (swingFlag r) false false false false false }

/-- `txA(rec)`: the blade steps, the frame carries its new code, FIELDS shows the record (R133, R134,
spec/45_blade.md R213). -/
def txA (r : ProtocolFields) (s : State) : State :=
  let blade := bladeNext s.params s.blade (swingFlag r)
  let code := bladeCode s.params blade
  setFields (shownA r code) (transmit (frameA r code) (setBlade blade s))

/-- `txB(rec)`: the blade is neither stepped nor read (R135, R136). -/
def txB (r : ProtocolFields) (s : State) : State :=
  setFields (shownB r) (transmit (frameB r) s)

/-- One frame of the variant CTRL selects when the command starts (R130, spec/30_encoding.md R96). -/
def transmitFrame (r : ProtocolFields) (s : State) : State :=
  match s.variant with
  | .a => txA r s
  | .b => txB r s

/-- TX (spec/41_frame_encoder.md R130). -/
def execTx (s : State) : Host.Outcome State Fault Refusal :=
  .next (withClimate encodeRecord transmitFrame s)

end Sys2Proof.Machine
end

