-- ==== Sys2Proof/Machine/Mapper.lean ====
section
/-! DEFINITION. The Semantic Mapper's commands MAPENC and MAPDEC (spec/43_semantic_mapper.md R192, R193). -/

namespace Sys2Proof.Machine

/-- MAPENC: FIELDS <- encodeRecord(CLIMATE, TARGET) (spec/43_semantic_mapper.md R192). -/
def execMapenc (s : State) : Host.Outcome State Fault Refusal :=
  .next (withClimate encodeRecord setFields s)

/-- MAPDEC: CLIMATE and TARGET <- decodeRecord(FIELDS), made valid and published (R193). -/
def execMapdec (s : State) : Host.Outcome State Fault Refusal :=
  .next (complete (commitClimate (decodeRecord s.fields) s))

end Sys2Proof.Machine
end

