-- ==== Sys2Proof/Machine/Dispatch.lean ====
section
/-! DEFINITION. The opcode map of spec/30_encoding.md R83 as meanings: one arm for each command. -/

namespace Sys2Proof.Machine

def exec (i : Instr) (s : State) : Host.Outcome State Fault Refusal :=
  match i with
  | .nop => Sys2Proof.Machine.execNop s
  | .rev len => Sys2Proof.Machine.execRev len s
  | .emitb => Sys2Proof.Machine.execEmitb s
  | .emitn len => Sys2Proof.Machine.execEmitn len s
  | .emitr len => Sys2Proof.Machine.execEmitr len s
  | .mapenc => Sys2Proof.Machine.execMapenc s
  | .mapdec => Sys2Proof.Machine.execMapdec s
  | .csum => Sys2Proof.Machine.execCsum s
  | .csumv => Sys2Proof.Machine.execCsumv s
  | .blnext => Sys2Proof.Machine.execBlnext s
  | .tx => Sys2Proof.Machine.execTx s
  | .rx => Sys2Proof.Machine.execRx s
  | .rxclr => Sys2Proof.Machine.execRxclr s

end Sys2Proof.Machine
end

