-- ==== Sys2Proof/Machine/Bus.lean ====
section
/-! DEFINITION. The host's side of the register window: which accesses are admitted (spec/20_memory.md
R60-R62), what a read and a write do (R63, R65), the command cycle (spec/46_control.md R220) and one step of the
machine, which serves the next pending access (R64; DESIGN CHOICE, log 4). -/

namespace Sys2Proof.Machine

/-- A 32-bit access at offset `off` from BASE, where `addr` and `width` make one; the fault otherwise. The block
decodes address bits [5:0] relative to BASE (spec/20_memory.md R61). -/
def admitAccess (base addr : Nat) (width : AccessWidth) : Except Fault Nat :=
  if base ≤ addr ∧ addr < base + 64 then
    if width = .bits32 ∧ (addr - base) % 4 = 0 then .ok (addr - base) else .error .notAdmitted
  else .error .outsideWindow

/-- The command cycle: a word that is no command raises Error(ILLEGAL_CMD), any other runs its command
(spec/46_control.md R220, spec/60_exceptions.md R232). -/
def runCommand (w : Word) (s : State) : Host.Outcome State Fault Refusal :=
  match decode w with
  | .ok i => exec i s
  | .error _ => .next (raise .illegalCmd s)

/-- A write to a register: CMD runs a command, every other stores (spec/20_memory.md R65). -/
def writeReg (r : Reg) (v : Word) (s : State) : Host.Outcome State Fault Refusal :=
  match r with
  | .cmd => runCommand v s
  | r => .next (storeReg r v s)

/-- A read of a register: it changes nothing of the block, and the host has the value (spec/20_memory.md R65;
DESIGN CHOICE, log 5). -/
def readBus (r : Reg) (s : State) : State :=
  { s with reads := s.reads ++ [readReg r s] }

/-- One access of the host, or one reset of the platform, as one atomic step (spec/20_memory.md R64,
spec/70_reset_and_hazards.md R260). -/
def serveAccess (i : Input) (s : State) : Host.Outcome State Fault Refusal :=
  match i with
  | .read addr width =>
    match admitAccess s.params.base addr width with
    | .ok off => .next (readBus (regAt off) s)
    | .error f => .fault f
  | .write addr width v =>
    match admitAccess s.params.base addr width with
    | .ok off => writeReg (regAt off) v s
    | .error f => .fault f
  | .reset => .next (applyReset s)

/-- One step: the next pending access is taken and served. With none pending the block is idle and waits
(spec/70_reset_and_hazards.md R261): nothing changes. -/
def serveNext (s : State) : Host.Outcome State Fault Refusal :=
  match s.inputs with
  | [] => .next s
  | i :: rest => serveAccess i { s with inputs := rest }

/-- The command word placed as the host's next access: a write of CMD, before the accesses already pending
(DESIGN CHOICE, log 4). -/
def placeCommand (w : Word) (s : State) : State :=
  { s with inputs := .write (s.params.base + regOffset .cmd) .bits32 w :: s.inputs }

end Sys2Proof.Machine
end

