-- ==== Sys2Proof/Machine/Step.lean ====
section
/-! DEFINITION. One step of the machine, and where the host's next command word is placed. -/

namespace Sys2Proof.Machine

/-- One step: one access of the host, which for a write of CMD is one whole command (spec/20_memory.md R64). -/
def step (s : State) : Host.Outcome State Fault Refusal := serveNext s

/-- `s` with the command word `w` of `nbits` bits as the host's next access, so that `step` runs exactly it. The
block fetches nothing (spec/20_memory.md R73): a program is the host's sequence of accesses (DESIGN CHOICE, log 4). -/
def State.withFetchWord (s : State) (nbits w : Nat) : State :=
  placeCommand (BitVec.ofNat 32 (w % 2 ^ nbits)) s

end Sys2Proof.Machine
end

