-- ==== Sys2Proof/Machine/HostAsm.lean ====
section
/-! DEFINITION. The host's assembly notation as sequences of accesses (spec/30_encoding.md R97-R99): programs are
straight-line lists of inputs, and these are their lines. -/

namespace Sys2Proof.Machine

/-- `wr REG, v` (spec/30_encoding.md R97). -/
def asmWr (p : Params) (r : Reg) (v : Word) : Input := .write (p.base + regOffset r) .bits32 v

/-- `rd REG` (R97). -/
def asmRd (p : Params) (r : Reg) : Input := .read (p.base + regOffset r) .bits32

/-- `cmd MNEMONIC` or `cmd MNEMONIC, len` (R97). -/
def asmCmd (p : Params) (i : Instr) : Input := asmWr p .cmd (encode i)

/-- `climate M, F, S` (R98). -/
def asmClimate (p : Params) (m : BitVec 3) (f : BitVec 4) (sw : BitVec 2) : Input :=
  asmWr p .climate (climateWord { mode := m, fan := f, swing := sw })

/-- `target t`, the temperature given as its binary32 word (R98). -/
def asmTarget (p : Params) (t : Word) : Input := asmWr p .target t

/-- `variant A` or `variant B` (R98). -/
def asmVariant (p : Params) (v : Variant) : Input := asmWr p .ctrl (ctrlWord v)

/-- `arg v` (R98). -/
def asmArg (p : Params) (v : Word) : Input := asmWr p .arg v

/-- `push m, s`: `wr RXPUSH, (s << 16) | m` (R98). -/
def asmPush (p : Params) (m s : BitVec 16) : Input := asmWr p .rxpush (s ++ m)

/-- `pushbits "b..."`: one push for each symbol, in order (R98). -/
def asmPushBits (p : Params) (bits : List Bool) : List Input :=
  bits.map fun b => asmPush p (BitVec.ofNat 16 bitMark) (BitVec.ofNat 16 (if b then oneSpace else zeroSpace))

/-- `capture` (R98). -/
def asmCapture (p : Params) : Input := asmCmd p .rxclr

/-- `emit MN, v, len`: the value, then the command (R98). -/
def asmEmit (p : Params) (i : Instr) (v : Word) : List Input := [asmArg p v, asmCmd p i]

end Sys2Proof.Machine
end

