-- ==== Sys2Proof/Machine/Wire.lean ====
section
/-! DEFINITION. The wire as an observer sees it: the symbols a value sends, a frame made of its symbols, the
capture a receiver would make of a transmission, and the airtime (spec/30_encoding.md R85-R91,
spec/70_reset_and_hazards.md R272). No step of the machine uses these; claims about frames are stated with
them. -/

namespace Sys2Proof.Machine

/-- The low `n` bits of a value, least significant first: a reversed field on the wire
(spec/40_bit_codec.md R115). -/
def lsbFirst {w : Nat} (v : BitVec w) (n : Nat) : List Bool := (List.range n).map v.getLsbD

/-- The low `n` bits of a value, most significant first: a natural field on the wire (R112). -/
def mostFirst {w : Nat} (v : BitVec w) (n : Nat) : List Bool :=
  (List.range n).map fun j => v.getLsbD (n - 1 - j)

/-- `n` zero symbols (spec/30_encoding.md R87, kind Z). -/
def zeros (n : Nat) : List Bool := List.replicate n false

/-- The items of a symbol sequence, in the durations of spec/30_encoding.md R85. -/
def symbols (bits : List Bool) : List Item :=
  bits.flatMap fun b => [.mark 660, .space (if b then 1630 else 530)]

/-- A transmitted frame around its symbols: header, symbols, trailer, in the durations of
spec/30_encoding.md R86. -/
def framed (bits : List Bool) : List Item :=
  [.mark 6050, .space 7450] ++ symbols bits ++ [.mark 530, .space 7450, .mark 530]

/-- The 67 symbols of a transmitted Variant A frame, row by row of spec/30_encoding.md R88. -/
def layoutA (modeCode : BitVec 3) (power : Bool) (fanCode : BitVec 2) (swing : Bool) (tempCode : BitVec 5)
    (blade csum : BitVec 4) : List Bool :=
  lsbFirst modeCode 3 ++ [power] ++ lsbFirst fanCode 2 ++ [swing] ++ [false] ++ lsbFirst tempCode 4 ++
    zeros 8 ++ [false] ++ [true] ++ [true] ++ [false] ++
    [false, true, false, false, true, false, true, false, false, false, false] ++
    lsbFirst blade 4 ++ zeros 4 ++ [false, true] ++ zeros 18 ++ lsbFirst csum 4

/-- The 96 symbols of a transmitted Variant B frame, row by row of spec/30_encoding.md R90. -/
def layoutB (modeCode : BitVec 3) (power : Bool) (fanCode : BitVec 2) (tempCode : BitVec 5) (csum : BitVec 4) :
    List Bool :=
  zeros 24 ++ [true] ++ zeros 32 ++ [!power] ++ zeros 3 ++ lsbFirst fanCode 2 ++ zeros 9 ++
    lsbFirst tempCode 5 ++ lsbFirst modeCode 3 ++ [true, false, true, false, false, true, false, true] ++
    zeros 4 ++ lsbFirst csum 4

/-- The duration of an item, in microseconds. -/
def itemDuration : Item → Nat
  | .mark us => us
  | .space us => us

/-- How long a transmission lasts on the wire, in microseconds (spec/70_reset_and_hazards.md R272). -/
def airtime (items : List Item) : Nat := (items.map itemDuration).sum

/-- Whether an item is a mark. -/
def isMark : Item → Bool
  | .mark _ => true
  | .space _ => false

/-- MARK and SPACE alternate, a MARK first (spec/30_encoding.md R89, spec/20_memory.md R70). -/
def alternates : List Item → Bool
  | [] => true
  | [i] => isMark i
  | i :: j :: rest => isMark i && !isMark j && alternates rest

/-- The capture of a transmission received without distortion: one pair for each mark and the space after it;
the last mark has a space of 0 (program P4 of spec/95_test_vectors.md). -/
def captured : List Item → List Pulse
  | [] => []
  | [i] => [{ mark := BitVec.ofNat 16 (itemDuration i), space := 0 }]
  | i :: j :: rest =>
    { mark := BitVec.ofNat 16 (itemDuration i), space := BitVec.ofNat 16 (itemDuration j) } :: captured rest

end Sys2Proof.Machine
end

