-- ==== Sys2Proof/Safety.lean ====
section
/-! DEFINITION. What claims call a safe run of the block: which accesses are admitted, and the invariant of the
state, each part with the rule of spec/ that makes it one. -/

namespace Sys2Proof.Machine

/-- A reset, or an access the spec gives a step: 32 bits wide, at a multiple of 4 in the window
(spec/20_memory.md R60, R62). -/
def admittedInput (p : Params) : Input → Prop
  | .read addr width =>
    p.base ≤ addr ∧ addr < p.base + 64 ∧ width = .bits32 ∧ (addr - p.base) % 4 = 0
  | .write addr width _ =>
    p.base ≤ addr ∧ addr < p.base + 64 ∧ width = .bits32 ∧ (addr - p.base) % 4 = 0
  | .reset => True

/-- A published state is one the decode direction of the mapper makes: a mode it can give, a fan level, OFF or
VERTICAL, and a whole temperature in [16, 47] (spec/43_semantic_mapper.md R185-R189). -/
def publishedOk (x : Published) : Prop :=
  x.mode ∈ [modeOff, modeHeatCool, modeCool, modeDry, modeFanOnly, modeHeat] ∧
    x.fan ∈ [fanAuto, fanLow, fanMedium, fanHigh] ∧
    x.swing ∈ [swingOff, swingVertical] ∧
    ∃ n, 16 ≤ n ∧ n ≤ 47 ∧ x.target = binary32OfNat n

/-- A transmission has the 38 kHz carrier and alternating items, a MARK first (spec/20_memory.md R70). -/
def transmissionOk (x : Transmission) : Prop :=
  x.carrier = 38000 ∧ alternates x.items = true

/-- The invariant of the state. -/
structure State.Inv (s : State) : Prop where
  /-- RXCAP holds at most RXCAP_MAX pairs (spec/10_state.md R41). -/
  captureFits : s.rxcap.length ≤ 256
  /-- RXOVF is set only while the buffer is full (spec/10_state.md R41, spec/42_frame_decoder.md R168). -/
  overflowFull : s.status.rxovf = true → s.rxcap.length = 256
  /-- An error shown in ERR is remembered in ERRSEEN (spec/10_state.md R37). -/
  errorSeen : s.status.err ≠ .none → s.status.errseen = true
  /-- REASON is 0 when ACC = 1 (spec/10_state.md R37). -/
  accNoReason : s.status.acc = true → s.status.reason = .none
  /-- Before CLIMATE is written it holds its reset value (spec/10_state.md R38). -/
  climateUnwritten : s.status.cv = false → s.climate = .reset
  /-- Before TARGET is written it holds its reset value (spec/10_state.md R42). -/
  targetUnwritten : s.status.tv = false → s.target = 0
  /-- RAWB is zero or holds a frame with the five header bytes (spec/10_state.md R46). -/
  rawHeader : (s.rawb0 = 0 ∧ s.rawb1 = 0 ∧ s.rawb2 = 0 ∧ s.rawb3 = 0) ∨
    (s.rawb0 = 0x1817DA11 ∧ s.rawb1.extractLsb' 0 8 = 0)
  /-- Every transmission has the carrier and alternates (spec/20_memory.md R70). -/
  transmissions : ∀ x ∈ s.txq, transmissionOk x
  /-- Every published state is whole and one the mapper makes (spec/10_state.md R45). -/
  publications : ∀ x ∈ s.pubq, publishedOk x
  /-- The parameters are conformant (spec/00_scope.md R8). -/
  params : paramsConformant s.params = true

/-- The state after an error, the whole of it: ERR and ERRSEEN (spec/60_exceptions.md R240). -/
def withError (code : ErrCode) (s : State) : State :=
  { s with status := { s.status with err := code, errseen := true } }

/-- The state with STATUS.ERR = 0 (spec/46_control.md R224). -/
def withDone (s : State) : State :=
  { s with status := { s.status with err := .none } }

/-- The state after "not recognized", the whole of it (spec/42_frame_decoder.md R164). -/
def withReject (reason : Reason) (s : State) : State :=
  { s with status := { s.status with err := .none, acc := false, reason := reason } }

/-- The state after a recognized frame, the whole of it but RAWB (spec/42_frame_decoder.md R157). -/
def withAccept (r : ProtocolFields) (x : Published) (s : State) : State :=
  { s with
    fields := r
    climate := { mode := x.mode, fan := x.fan, swing := x.swing }
    target := x.target
    status := { s.status with err := .none, acc := true, reason := .none, cv := true, tv := true }
    pubq := s.pubq ++ [x] }

/-- The command word's checks for an opcode whose LEN must be 0 (spec/30_encoding.md R81, R82,
spec/46_control.md R220): with RSV = 0 and LEN = 0 the word runs the command, else it raises ILLEGAL_CMD. -/
def runsPlain (op : BitVec 8) (i : Instr) : Prop :=
  ∀ w s, opField w = op →
    runCommand w s =
      if rsvField w = 0 ∧ lenField w = 0 then exec i s else .next (withError .illegalCmd s)

/-- The same for an opcode whose LEN is an operand: with RSV = 0 the word runs the command with its LEN. -/
def runsWithLen (op : BitVec 8) (i : Nat → Instr) : Prop :=
  ∀ w s, opField w = op →
    runCommand w s =
      if rsvField w = 0 then exec (i (lenField w).toNat) s else .next (withError .illegalCmd s)

/-- TARGET holds a NaN: exponent bits all ones and a non-zero fraction (spec/60_exceptions.md R235). -/
def nanBits (t : Word) : Prop := t.extractLsb' 23 8 = 0xFF ∧ t.extractLsb' 0 23 ≠ 0

/-- CLIMATE and TARGET have been written and TARGET is no NaN: when a command that reads them runs
(spec/10_state.md R43). -/
def climateReady (s : State) : Prop :=
  s.status.cv = true ∧ s.status.tv = true ∧ ¬ nanBits s.target

/-- The errors of a command that reads CLIMATE and TARGET (spec/60_exceptions.md R234, R235, R238). -/
def climateErrors (i : Instr) : Prop :=
  ∀ s, ((s.status.cv = false ∨ s.status.tv = false) → exec i s = .next (withError .uninit s)) ∧
    (s.status.cv = true → s.status.tv = true → nanBits s.target →
      exec i s = .next (withError .badTemp s))

/-- The swing intent: CLIMATE.SWING = VERTICAL (spec/43_semantic_mapper.md R182). -/
def wantsVertical (s : State) : Bool := decide (s.climate.swing = 2)

/-- Powered on: CLIMATE.MODE is not OFF (spec/43_semantic_mapper.md R184). -/
def poweredOn (s : State) : Bool := decide (s.climate.mode ≠ 0)

/-- `n` TX commands one after another (spec/45_blade.md R214). -/
def repeatTx : Nat → State → Host.Outcome State Fault Refusal
  | 0, s => .next s
  | n + 1, s =>
    match repeatTx n s with
    | .next t => exec .tx t
    | .fault f => .fault f
    | .refused r => .refused r

/-- The pair under the cursor is the bit symbol `b`: a 1 if it matches a 1, a 0 if it matches a 0 and no 1, which
is the order of the two tests (spec/42_frame_decoder.md R151). -/
def isSymbol (p : Params) (cap : List Pulse) (pos : Nat) (b : Bool) : Prop :=
  if b then pairMatches p cap pos 660 1630 = true
  else pairMatches p cap pos 660 1630 = false ∧ pairMatches p cap pos 660 530 = true

/-- The pairs from the cursor on are these symbols, whatever comes after them. -/
def spellsFrom (p : Params) (cap : List Pulse) (pos : Nat) (bits : List Bool) : Prop :=
  ∀ i b, bits[i]? = some b → isSymbol p cap (pos + i) b

/-- The capture spells the header and then these symbols, whatever comes after
(spec/42_frame_decoder.md R166). -/
def spells (p : Params) (cap : List Pulse) (bits : List Bool) : Prop :=
  pairMatches p cap 0 6050 7450 = true ∧ spellsFrom p cap 1 bits

end Sys2Proof.Machine
end

