-- ==== Sys2Proof/Certificates/Slice0/Obligations.lean ====
section
/-! DEFINITION. The statements about the model, one for each entry of OBLIGATIONS.json. Each docstring cites the
rule of spec/ that the statement formalises. No statement is about a program. -/

open Sys2Proof Sys2Proof.Machine Host

/-! ## Reset and the invariant -/

/-- spec/70_reset_and_hazards.md R261: what every piece of the block's state holds after reset. BLADE reads
BLADE_CODE(STOP). -/
def Obligations.ResetStateIsAsTabled : Prop :=
  (∀ r : Reg, r ≠ .blade → readReg r State.reset = 0) ∧
    State.reset.blade = .stop ∧
    readReg .blade State.reset = (bladeCode State.reset.params .stop).setWidth 32 ∧
    State.reset.rxcap = [] ∧
    State.reset.status = ⟨.none, false, .none, false, false, false, false⟩

/-- spec/70_reset_and_hazards.md R262 (and the reset of every piece of state, R260): a reset leaves both streams
as they are. What it does to the model's own fields (the host's pending accesses and reads, the parameters) is
the model's choice, logs 1, 4 and 5. -/
def Obligations.PlatformResetKeepsStreams : Prop :=
  ∀ s rest, s.inputs = .reset :: rest → ∃ t, step s = .next t ∧
    t.txq = s.txq ∧ t.pubq = s.pubq ∧
    (∀ r : Reg, r ≠ .blade → readReg r t = 0) ∧ t.blade = .stop ∧ t.rxcap = [] ∧
    t.inputs = rest ∧ t.reads = s.reads ∧ t.params = s.params

/-- The invariant of the state holds right after power-on. It rests on the parameters the model carries at
reset (logs 1 and 2). -/
def Obligations.InvariantHoldsAtReset : Prop := State.reset.Inv

/-- Every step, whatever the host does, keeps the invariant of the state: the capture buffer fits, RXOVF is set
only while it is full, an error is remembered, REASON is 0 when ACC is 1, CLIMATE and TARGET hold their reset
values until written, RAWB is zero or a frame with the five header bytes, every transmission has the carrier and
alternates, every published state is one the mapper makes, and the parameters stay conformant (logs 10 and
13). -/
def Obligations.EveryStepKeepsInvariant : Prop :=
  ∀ s t, s.Inv → step s = .next t → t.Inv

/-! ## Command words -/

/-- spec/30_encoding.md sections 1 and 2: the decoder reads back every command from its word, with LEN at every
value of its field. -/
def Obligations.DecodeReadsBackEveryEncoding : Prop :=
  ∀ i : Instr, i.wellFormed = true → decode (encode i) = .ok i

/-- spec/30_encoding.md sections 1 and 2: each word has one meaning. A word that decodes is the encoding of its
command, which is well formed. -/
def Obligations.EveryDecodedWordIsItsEncoding : Prop :=
  ∀ w i, decode w = .ok i → encode i = w ∧ i.wellFormed = true

/-- spec/30_encoding.md R83: a word decodes to a row's command exactly where `(word & mask) == match` for the row,
with the masks, opcodes and LEN forms of the table. -/
def Obligations.DecodingSelectsTheMatchingRow : Prop :=
  ∀ w : Word,
    (decode w = .ok .nop ↔ w &&& 0xFFFFFFFF = 0x00000000) ∧
    ((∃ n, decode w = .ok (.rev n)) ↔ w &&& 0xFFFFC0FF = 0x00000001) ∧
    (decode w = .ok .emitb ↔ w &&& 0xFFFFFFFF = 0x00000002) ∧
    ((∃ n, decode w = .ok (.emitn n)) ↔ w &&& 0xFFFFC0FF = 0x00000003) ∧
    ((∃ n, decode w = .ok (.emitr n)) ↔ w &&& 0xFFFFC0FF = 0x00000004) ∧
    (decode w = .ok .mapenc ↔ w &&& 0xFFFFFFFF = 0x00000010) ∧
    (decode w = .ok .mapdec ↔ w &&& 0xFFFFFFFF = 0x00000011) ∧
    (decode w = .ok .csum ↔ w &&& 0xFFFFFFFF = 0x00000012) ∧
    (decode w = .ok .csumv ↔ w &&& 0xFFFFFFFF = 0x00000013) ∧
    (decode w = .ok .blnext ↔ w &&& 0xFFFFFFFF = 0x00000014) ∧
    (decode w = .ok .tx ↔ w &&& 0xFFFFFFFF = 0x00000020) ∧
    (decode w = .ok .rx ↔ w &&& 0xFFFFFFFF = 0x00000021) ∧
    (decode w = .ok .rxclr ↔ w &&& 0xFFFFFFFF = 0x00000022)

/-- spec/60_exceptions.md R232, spec/30_encoding.md R82, R84: which words raise ILLEGAL_CMD when written to CMD,
and that they change nothing but ERR and ERRSEEN. -/
def Obligations.IllegalWordsRaiseIllegalCmd : Prop :=
  ∀ (w : Word) (s : State),
    (w.extractLsb' 14 18 ≠ 0 ∨
      ¬ (w.extractLsb' 0 8 ∈ ([0x00, 0x01, 0x02, 0x03, 0x04, 0x10, 0x11, 0x12, 0x13, 0x14, 0x20, 0x21, 0x22] :
        List (BitVec 8))) ∨
      (w.extractLsb' 8 6 ≠ 0 ∧ ¬ (w.extractLsb' 0 8 ∈ ([0x01, 0x03, 0x04] : List (BitVec 8))))) →
    runCommand w s = .next (withError .illegalCmd s)

/-- A few words written out from spec/30_encoding.md R80 and R83. -/
def Obligations.SampleWordsDecodeAsTabled : Prop :=
  decode 0x00000B01 = .ok (.rev 11) ∧ decode 0x00002003 = .ok (.emitn 32) ∧
    decode 0x00003F04 = .ok (.emitr 63) ∧ decode 0x00000020 = .ok .tx ∧ decode 0x00000014 = .ok .blnext ∧
    decode 0x00000013 = .ok .csumv ∧ decode 0x00000011 = .ok .mapdec ∧ decode 0x00000100 = .error .lenNonZero ∧
    decode 0x00000005 = .error .unassignedOp ∧ decode 0x00006101 = .error .reservedNonZero

/-- spec/46_control.md R220: a write of any word to CMD at BASE + 4 is one step: the command cycle at that state, with
the access taken from the host's pending ones. The cycle is the `exec` of the command the word decodes to, or
ILLEGAL_CMD where it decodes to none. A word placed by `withFetchWord` is the next such write (log 4). -/
def Obligations.StepRunsTheCommandWord : Prop :=
  ∀ (s : State) (rest : List Input) (w : Word),
    (s.inputs = .write (s.params.base + 4) .bits32 w :: rest →
      step s = runCommand w { s with inputs := rest }) ∧
    step (s.withFetchWord 32 w.toNat) = runCommand w s ∧
    (∀ i, decode w = .ok i → runCommand w s = exec i s) ∧
    ((∀ i, decode w ≠ .ok i) → runCommand w s = .next (withError .illegalCmd s))

/-- spec/70_reset_and_hazards.md section 1: with no access pending the block is idle. How the host's accesses
come to the machine is the model's choice (log 4). -/
def Obligations.StepWithoutInputIdles : Prop :=
  ∀ s : State, s.inputs = [] → step s = .next s

/-! ## All commands -/

/-- spec/60_exceptions.md R249 and spec/46_control.md R220: every command word, in every state, either completes
with STATUS.ERR = 0 or raises one error and changes nothing but ERR and ERRSEEN. An RX always completes, whether
or not it recognizes a frame. -/
def Obligations.EveryWordCompletesOrRaisesOneError : Prop :=
  ∀ (w : Word) (s : State), ∃ t, runCommand w s = .next t ∧
    (t.status.err = .none ∨ t = withError t.status.err s) ∧
    (decode w = .ok .rx → t.status.err = .none)

/-- spec/10_state.md R35 and section 1: no command writes ARG, CTRL, the host's accesses and reads, or the
parameters (the last three are the model's own fields: logs 4, 5 and 1). -/
def Obligations.NoCommandWritesItsInputs : Prop :=
  ∀ (i : Instr) (s t : State), exec i s = .next t →
    t.arg = s.arg ∧ t.variant = s.variant ∧ t.params = s.params ∧ t.inputs = s.inputs ∧ t.reads = s.reads

/-- spec/10_state.md R36: RESULT is written by REV, CSUM, CSUMV and BLNEXT when they complete without error, and
no other command changes it. -/
def Obligations.OnlyResultCommandsWriteResult : Prop :=
  ∀ (i : Instr) (s t : State), exec i s = .next t → t.result ≠ s.result →
    t.status.err = .none ∧ ((∃ n, i = .rev n) ∨ i = .csum ∨ i = .csumv ∨ i = .blnext)

/-- spec/45_blade.md R213: the blade steps exactly once at a Variant A TX that does not err, and at no other
command; reset makes it STOP. -/
def Obligations.BladeStepsOnlyAtVariantATx : Prop :=
  (∀ (i : Instr) (s t : State), exec i s = .next t →
    t.blade =
      if i = .tx ∧ s.variant = .a ∧ t.status.err = .none then
        bladeNext s.params s.blade (wantsVertical s)
      else s.blade) ∧
    ∀ s : State, (applyReset s).blade = .stop

/-- spec/10_state.md R44 and R45: which commands append to TXQ and to PUBQ, and that each appends exactly one
element when it completes (RX only when it recognizes its frame). -/
def Obligations.StreamsGrowByTheirCommandsOnly : Prop :=
  ∀ (i : Instr) (s t : State), exec i s = .next t →
    (t.status.err = .none → (i = .tx ∨ i = .emitb ∨ (∃ n, i = .emitn n) ∨ ∃ n, i = .emitr n) →
      ∃ x, t.txq = s.txq ++ [x]) ∧
    (t.txq ≠ s.txq →
      t.status.err = .none ∧ (i = .tx ∨ i = .emitb ∨ (∃ n, i = .emitn n) ∨ ∃ n, i = .emitr n)) ∧
    (i = .mapdec ∨ (i = .rx ∧ t.status.acc = true) → ∃ x, t.pubq = s.pubq ++ [x]) ∧
    (t.pubq ≠ s.pubq → i = .mapdec ∨ (i = .rx ∧ t.status.acc = true))

/-- spec/10_state.md R37: which commands write which STATUS fields: ACC and REASON by RX only, CV and TV set by an
accepting RX and MAPDEC only, RXOVF cleared by RXCLR only, ERRSEEN set by a command that raises an error and
cleared by none. -/
def Obligations.StatusFieldsHaveTheirWriters : Prop :=
  ∀ (i : Instr) (s t : State), exec i s = .next t →
    (i ≠ .rx → t.status.acc = s.status.acc ∧ t.status.reason = s.status.reason) ∧
    (t.status.cv = (s.status.cv || decide (i = .mapdec) || (decide (i = .rx) && t.status.acc))) ∧
    (t.status.tv = (s.status.tv || decide (i = .mapdec) || (decide (i = .rx) && t.status.acc))) ∧
    (t.status.rxovf = (s.status.rxovf && !decide (i = .rxclr))) ∧
    (t.status.errseen = (s.status.errseen || decide (t.status.err ≠ .none)))

/-- spec/10_state.md section 2: which commands write FIELDS, CLIMATE, TARGET, RXCAP and RAWB. -/
def Obligations.RegistersHaveTheirWriters : Prop :=
  ∀ (i : Instr) (s t : State), exec i s = .next t →
    (i ≠ .tx → i ≠ .mapenc → (i = .rx → t.status.acc = false) → t.fields = s.fields) ∧
    (i ≠ .mapdec → (i = .rx → t.status.acc = false) → t.climate = s.climate ∧ t.target = s.target) ∧
    (t.rxcap = if i = .rxclr then [] else s.rxcap) ∧
    ((i = .rx → s.variant = .a ∨ t.status.acc = false) →
      t.rawb0 = s.rawb0 ∧ t.rawb1 = s.rawb1 ∧ t.rawb2 = s.rawb2 ∧ t.rawb3 = s.rawb3)

/-- spec/10_state.md R37 ("ERRSEEN is cleared only by reset") and spec/20_memory.md R64, R68 (one step appends at
most one element to each stream, after those already there), over every step of the machine. -/
def Obligations.EveryStepKeepsErrseenAndStreams : Prop :=
  ∀ s t : State, step s = .next t →
    (s.status.errseen = true → (∀ rest, s.inputs ≠ .reset :: rest) → t.status.errseen = true) ∧
    (t.txq = s.txq ∨ ∃ x, t.txq = s.txq ++ [x]) ∧ (t.pubq = s.pubq ∨ ∃ x, t.pubq = s.pubq ++ [x])

/-- spec/10_state.md R33: CTRL.VARIANT is read by TX and RX alone. Any other command does the same under either
variant, and leaves the variant as it was. -/
def Obligations.OnlyTxAndRxReadTheVariant : Prop :=
  ∀ (i : Instr) (s t : State) (v : Variant), i ≠ .tx → i ≠ .rx → exec i s = .next t →
    exec i { s with variant := v } = .next { t with variant := v }

/-! ## NOP and RXCLR -/

/-- spec/46_control.md R221: NOP writes STATUS.ERR and nothing else. -/
def Obligations.NopOnlyClearsErr : Prop :=
  runsPlain 0x00 .nop ∧ ∀ s, exec .nop s = .next (withDone s)

/-- spec/42_frame_decoder.md R168: RXCLR empties RXCAP and clears RXOVF; ACC, REASON and RAWB stay. -/
def Obligations.RxclrEmptiesTheCapture : Prop :=
  runsPlain 0x22 .rxclr ∧
    ∀ s, ∃ t, exec .rxclr s = .next t ∧ readReg .rxlen t = 0 ∧
      t = withDone { s with rxcap := [], status := { s.status with rxovf := false } }

/-! ## Bit Codec -/

/-- spec/40_bit_codec.md R116 and R110: REV reverses the low LEN bits of ARG into RESULT and keeps the others;
LEN above 32 raises BAD_OPERAND. -/
def Obligations.RevReversesTheLowBits : Prop :=
  runsWithLen 0x01 .rev ∧
    ∀ len s, (32 < len → exec (.rev len) s = .next (withError .badOperand s)) ∧
      (len ≤ 32 → ∃ r : Word,
        (∀ i < 32, r.getLsbD i = if i < len then s.arg.getLsbD (len - 1 - i) else s.arg.getLsbD i) ∧
        exec (.rev len) s = .next (withDone { s with result := r }))

/-- spec/40_bit_codec.md R117: EMITB transmits one symbol, that of ARG[0]. -/
def Obligations.EmitbSendsTheSymbolOfBitZero : Prop :=
  runsPlain 0x02 .emitb ∧
    ∀ s, exec .emitb s = .next (withDone { s with
      txq := s.txq ++ [⟨38000, [.mark 660, .space (if s.arg.getLsbD 0 then 1630 else 530)]⟩] })

/-- spec/40_bit_codec.md R118: EMITN transmits the low LEN bits of ARG, most significant first; LEN above 32
raises BAD_OPERAND and appends nothing. -/
def Obligations.EmitnSendsMostSignificantFirst : Prop :=
  runsWithLen 0x03 .emitn ∧
    ∀ len s, (32 < len → exec (.emitn len) s = .next (withError .badOperand s)) ∧
      (len ≤ 32 → exec (.emitn len) s = .next (withDone { s with
        txq := s.txq ++ [⟨38000, symbols (mostFirst s.arg len)⟩] }))

/-- spec/40_bit_codec.md R119 and R115: EMITR transmits the low LEN bits of ARG, least significant first; LEN
above 32 raises BAD_OPERAND and appends nothing. -/
def Obligations.EmitrSendsLeastSignificantFirst : Prop :=
  runsWithLen 0x04 .emitr ∧
    ∀ len s, (32 < len → exec (.emitr len) s = .next (withError .badOperand s)) ∧
      (len ≤ 32 → exec (.emitr len) s = .next (withDone { s with
        txq := s.txq ++ [⟨38000, symbols (lsbFirst s.arg len)⟩] }))

/-! ## Semantic Mapper -/

/-- spec/43_semantic_mapper.md R180, R181, R182, R184, R185, R186, R187: the mapper's tables, every row. -/
def Obligations.MapperTablesAsWritten : Prop :=
  (encMode 1 = 0 ∧ encMode 2 = 1 ∧ encMode 5 = 2 ∧ encMode 4 = 3 ∧ encMode 3 = 4 ∧
    encMode 0 = 0 ∧ encMode 6 = 0 ∧ encMode 7 = 0) ∧
  (encFan 2 = 0 ∧ encFan 3 = 1 ∧ encFan 4 = 2 ∧ encFan 5 = 3 ∧
    ∀ f : BitVec 4, f ≠ 3 → f ≠ 4 → f ≠ 5 → encFan f = 0) ∧
  (∀ w : BitVec 2, encSwing w = decide (w = 2)) ∧
  (∀ m : BitVec 3, powerBit m = decide (m ≠ 0)) ∧
  (decMode 0 = 1 ∧ decMode 1 = 2 ∧ decMode 2 = 5 ∧ decMode 3 = 4 ∧ decMode 4 = 3 ∧
    decMode 5 = 1 ∧ decMode 6 = 1 ∧ decMode 7 = 1) ∧
  (decFan 0 = 2 ∧ decFan 1 = 3 ∧ decFan 2 = 4 ∧ decFan 3 = 5) ∧
  (decSwing true = 2 ∧ decSwing false = 0)

/-- spec/43_semantic_mapper.md R183: the temperature code is the target, clamped to [16, 32] and less 16, rounded
to the nearest integer with ties upwards, exactly. `u` counts units of 2^-149. The first clauses say what number a
word is, from its sign [31], exponent [30:23] and fraction [22:0]. The binary32 format and the tie rule are the
spec's general knowledge (log 8). -/
def Obligations.EncTempClampsAndRounds : Prop :=
  (∀ (t : Word) (sign : Int) (e f : Nat), sign = (if t.getLsbD 31 then -1 else 1) →
    e = (t.extractLsb' 23 8).toNat → f = (t.extractLsb' 0 23).toNat →
    (e = 0 → binary32 t = .finite (sign * f)) ∧
    (0 < e → e < 255 → binary32 t = .finite (sign * ((2 ^ 23 + f) * 2 ^ (e - 1)))) ∧
    (e = 255 → f = 0 → binary32 t = .inf (t.getLsbD 31)) ∧
    (e = 255 → f ≠ 0 → binary32 t = .nan)) ∧
  (∀ t u, binary32 t = .finite u → ∃ c : BitVec 5, encTemp t = some c ∧
    (u ≤ 16 * 2 ^ 149 → c = 0) ∧ (32 * 2 ^ 149 ≤ u → c = 16) ∧
    (16 * 2 ^ 149 ≤ u → u ≤ 32 * 2 ^ 149 →
      (2 * (c.toNat : Int) - 1) * 2 ^ 149 ≤ 2 * (u - 16 * 2 ^ 149) ∧
        2 * (u - 16 * 2 ^ 149) < (2 * (c.toNat : Int) + 1) * 2 ^ 149)) ∧
  (∀ t, binary32 t = .inf true → encTemp t = some 0) ∧
  (∀ t, binary32 t = .inf false → encTemp t = some 16)

/-- spec/43_semantic_mapper.md R188: decTemp gives the binary32 of code + 16, with no clamp (the format: log 8). -/
def Obligations.DecTempAddsSixteen : Prop :=
  (∀ c : BitVec 5, binary32 (decTemp c) = .finite ((c.toNat + 16) * 2 ^ 149)) ∧
    decTemp 0 = 0x41800000 ∧ decTemp 15 = 0x41F80000 ∧ decTemp 31 = 0x423C0000

/-- spec/43_semantic_mapper.md R194: the round-trip laws of the mapper, which the spec marks as derived. In (a),
`n` is round(t). -/
def Obligations.MapperRoundTrips : Prop :=
  (∀ t u, binary32 t = .finite u → 16 * 2 ^ 149 ≤ u → u ≤ 32 * 2 ^ 149 →
    ∃ (c : BitVec 5) (n : Int), encTemp t = some c ∧ binary32 (decTemp c) = .finite (n * 2 ^ 149) ∧
      (2 * n - 1) * 2 ^ 149 ≤ 2 * u ∧ 2 * u < (2 * n + 1) * 2 ^ 149) ∧
  (∀ m ∈ [modeHeatCool, modeCool, modeDry, modeFanOnly, modeHeat], decMode (encMode m) = m) ∧
  (∀ f ∈ [fanAuto, fanLow, fanMedium, fanHigh], decFan (encFan f) = f) ∧
  (∀ w ∈ [swingOff, swingVertical], decSwing (encSwing w) = w)

/-- spec/43_semantic_mapper.md R192 and R190: MAPENC's record, and its errors. -/
def Obligations.MapencBuildsTheRecord : Prop :=
  runsPlain 0x10 .mapenc ∧ climateErrors .mapenc ∧
    ∀ s, climateReady s → ∃ c : BitVec 5, encTemp s.target = some c ∧
      exec .mapenc s = .next (withDone { s with
        fields :=
          { modeCode := encMode s.climate.mode
            fanCode := encFan s.climate.fan
            tempCode := c
            csum := BitVec.ofNat 4 ((c.toNat + (encMode s.climate.mode).toNat + 2) % 16)
            blade := 0
            flags := (if poweredOn s then 1 else 0) ||| (if wantsVertical s then 2 else 0) } })

/-- spec/43_semantic_mapper.md R193, R191 and R189: MAPDEC writes CLIMATE and TARGET from FIELDS, with the power
override after the mode's decoding, makes them valid and publishes them once. -/
def Obligations.MapdecPublishesTheClimate : Prop :=
  runsPlain 0x11 .mapdec ∧
    ∀ s, ∃ m f w t,
      m = (if s.fields.flags.getLsbD 0 then decMode s.fields.modeCode else 0) ∧
      f = decFan s.fields.fanCode ∧
      w = (if s.fields.flags.getLsbD 1 then 2 else 0) ∧
      t = decTemp s.fields.tempCode ∧
      exec .mapdec s = .next (withDone { s with
        climate := ⟨m, f, w⟩
        target := t
        status := { s.status with cv := true, tv := true }
        pubq := s.pubq ++ [⟨m, f, w, t⟩] })

/-! ## Checksum -/

/-- spec/44_checksum.md R202 and R200: CSUM leaves (ARG[7:0] + ARG[15:8] + 2) mod 16 in RESULT. -/
def Obligations.CsumComputesTheChecksum : Prop :=
  runsPlain 0x12 .csum ∧
    ∀ s, ∃ r : Word, r.toNat = (s.arg.toNat % 256 + s.arg.toNat / 256 % 256 + 2) % 16 ∧
      exec .csum s = .next (withDone { s with result := r })

/-- spec/44_checksum.md R203 and R201: CSUMV compares the whole ARG with the checksum TX would send now. -/
def Obligations.CsumvComparesTheWholeValue : Prop :=
  runsPlain 0x13 .csumv ∧ climateErrors .csumv ∧
    ∀ s, climateReady s → ∃ c : BitVec 5, encTemp s.target = some c ∧
      exec .csumv s = .next (withDone { s with
        result :=
          if s.arg.toNat = (c.toNat + (encMode s.climate.mode).toNat + 2) % 16 then 1 else 0 })

/-- spec/44_checksum.md R200, and R204, which the spec marks as derived: the checksum is below 16, and 16 more in
the temperature code does not show. -/
def Obligations.ChecksumIsPeriodicInTemperature : Prop :=
  ∀ t m : Nat, (computeChecksum t m).toNat = (t + m + 2) % 16 ∧ (computeChecksum t m).toNat < 16 ∧
    computeChecksum (t + 16) m = computeChecksum t m

/-! ## Blade -/

/-- spec/45_blade.md R215: BLNEXT evaluates the transition table for the position ARG[3:0] names, under any
BLADE_CODE that is injective, and raises BAD_OPERAND where it names none. -/
def Obligations.BlnextEvaluatesTheTable : Prop :=
  runsPlain 0x14 .blnext ∧
    ∀ s, ((∀ p, bladeCode s.params p ≠ s.arg.extractLsb' 0 4) →
        exec .blnext s = .next (withError .badOperand s)) ∧
      ((∀ a b, bladeCode s.params a = bladeCode s.params b → a = b) →
        ∀ p, bladeCode s.params p = s.arg.extractLsb' 0 4 →
          exec .blnext s = .next (withDone { s with
            result := (bladeCode s.params (bladeNext s.params p (s.arg.getLsbD 4))).setWidth 32 }))

/-- spec/45_blade.md R211, R212: the default tables, every entry, through BLADE_CODE. The column is by position in
the order STOP, L1..L5, FULL, LOW, MID, HIGH. The codes are the spec's general knowledge (log 8). -/
def Obligations.DefaultBladeTablesAsWritten : Prop :=
  let order := [BladePos.stop, .l1, .l2, .l3, .l4, .l5, .full, .low, .mid, .high]
  order.map (bladeCode defaultParams) = [0x0, 0x2, 0x3, 0x4, 0x5, 0x6, 0x1, 0x7, 0x9, 0xB] ∧
    order.map (bladeNext defaultParams · false) =
      [.l1, .l2, .l3, .l4, .l5, .stop, .stop, .stop, .stop, .stop] ∧
    order.map (bladeNext defaultParams · true) =
      [.full, .full, .full, .full, .full, .full, .low, .mid, .high, .full]

/-- spec/45_blade.md R214, which the spec marks as derived: under the default table, the frame of the last of n + 1
Variant A TX commands from STOP carries the code of the cycle L1, L2, L3, L4, L5, STOP without vertical intent and
FULL, LOW, MID, HIGH with it; FIELDS.BLADE shows it; and no TX repeats the frame before it. -/
def Obligations.DefaultBladeCycles : Prop :=
  ∀ (n : Nat) (s : State), s.params = defaultParams → s.blade = .stop → s.variant = .a → climateReady s →
    ∃ (t u : State) (code k : BitVec 4) (c : BitVec 5) (x y : Transmission) (before : List Transmission),
      code =
        (if wantsVertical s then ([0x1, 0x7, 0x9, 0xB] : List (BitVec 4)).getD (n % 4) 0
          else ([0x2, 0x3, 0x4, 0x5, 0x6, 0x0] : List (BitVec 4)).getD (n % 6) 0) ∧
      encTemp s.target = some c ∧ k.toNat = (c.toNat + (encMode s.climate.mode).toNat + 2) % 16 ∧
      repeatTx (n + 1) s = .next t ∧ t.fields.blade = code ∧ t.txq = before ++ [x] ∧
      x.items = framed (layoutA (encMode s.climate.mode) (poweredOn s) (encFan s.climate.fan) (wantsVertical s) c
        code k) ∧
      exec .tx t = .next u ∧ u.txq = before ++ [x, y] ∧ x.items ≠ y.items

/-! ## Frame Encoder -/

/-- spec/41_frame_encoder.md R133, R134 and spec/30_encoding.md R88: a Variant A TX steps the blade, sends the
67-symbol frame with the new blade code, and FIELDS shows the record with light and tree-icon set. -/
def Obligations.TxSendsTheVariantAFrame : Prop :=
  runsPlain 0x20 .tx ∧ climateErrors .tx ∧
    ∀ s, climateReady s → s.variant = .a → ∃ (c : BitVec 5) (k : BitVec 4) (b : BladePos) (code : BitVec 4),
      encTemp s.target = some c ∧
      k.toNat = (c.toNat + (encMode s.climate.mode).toNat + 2) % 16 ∧
      b = bladeNext s.params s.blade (wantsVertical s) ∧ code = bladeCode s.params b ∧
      exec .tx s = .next (withDone { s with
        blade := b
        txq := s.txq ++
          [⟨38000, framed (layoutA (encMode s.climate.mode) (poweredOn s) (encFan s.climate.fan)
            (wantsVertical s) c code k)⟩]
        fields :=
          { modeCode := encMode s.climate.mode
            fanCode := encFan s.climate.fan
            tempCode := c
            csum := k
            blade := code
            flags := (if poweredOn s then 1 else 0) ||| (if wantsVertical s then 2 else 0) ||| 0x30 } })

/-- spec/41_frame_encoder.md R135, R136 and spec/30_encoding.md R90: a Variant B TX sends the 96-symbol frame and
neither reads nor steps the blade; FIELDS shows the record. -/
def Obligations.TxSendsTheVariantBFrame : Prop :=
  ∀ s, climateReady s → s.variant = .b → ∃ (c : BitVec 5) (k : BitVec 4),
      encTemp s.target = some c ∧
      k.toNat = (c.toNat + (encMode s.climate.mode).toNat + 2) % 16 ∧
      exec .tx s = .next (withDone { s with
        txq := s.txq ++
          [⟨38000, framed (layoutB (encMode s.climate.mode) (poweredOn s) (encFan s.climate.fan) c k)⟩]
        fields :=
          { modeCode := encMode s.climate.mode
            fanCode := encFan s.climate.fan
            tempCode := c
            csum := k
            blade := 0
            flags := (if poweredOn s then 1 else 0) ||| (if wantsVertical s then 2 else 0) } })

/-- spec/41_frame_encoder.md R138: TX reads none of FIELDS, ARG, RESULT and RXCAP. Two states that differ in them
alone send the same element and end with the same FIELDS, blade state and STATUS. -/
def Obligations.TxDoesNotReadTheOtherRegisters : Prop :=
  ∀ (s t : State) (f : ProtocolFields) (a r : Word) (cap : List Pulse),
    exec .tx s = .next t → ∃ u,
      exec .tx { s with fields := f, arg := a, result := r, rxcap := cap } = .next u ∧
      u.txq = t.txq ∧ u.status = t.status ∧ u.blade = t.blade ∧
      (t.status.err = .none → u.fields = t.fields) ∧
      u = { t with fields := u.fields, arg := a, result := r, rxcap := cap }

/-- spec/30_encoding.md R89 and R91, spec/70_reset_and_hazards.md R272: the sizes of the frames, that their items
alternate, and their airtime, where `k` symbols are ones. -/
def Obligations.FrameSizesAndAirtime : Prop :=
  ∀ s t : State, exec .tx s = .next t → t.status.err = .none →
    ∃ bits : List Bool, t.txq = s.txq ++ [⟨38000, framed bits⟩] ∧
      bits.length = (if s.variant = .a then 67 else 96) ∧
      (framed bits).length = (if s.variant = .a then 139 else 197) ∧
      alternates (framed bits) = true ∧
      airtime (framed bits) = 22010 + 1190 * bits.length + 1100 * bits.count true

/-! ## Frame Decoder -/

/-- spec/42_frame_decoder.md R164: a rejected frame changes STATUS only, whatever the capture and the variant,
and RX never raises an error. -/
def Obligations.RejectChangesStatusOnly : Prop :=
  runsPlain 0x21 .rx ∧
    ∀ s, ∃ t, exec .rx s = .next t ∧ t.status.err = .none ∧
      (t.status.acc = false → ∃ reason, reason ≠ .none ∧ t = withReject reason s) ∧
      (t.status.acc = true → t.status.reason = .none)

/-- spec/42_frame_decoder.md R153, R156, R157: a capture that spells the header and the 35 symbols of the Variant A
layout, with the pad zero and the constant 0x250, is recognized, whatever follows; all of FIELDS, CLIMATE,
TARGET, STATUS and the published element in one step. -/
def Obligations.RxRecognizesVariantA : Prop :=
  ∀ (s : State) (mode fan temp const : List Bool) (power swing sleep turbo light tree blow : Bool),
    s.variant = .a → mode.length = 3 → fan.length = 2 → temp.length = 4 → const.length = 11 →
    assemble s.params.constOrder const = 0x250 →
    spells s.params s.rxcap
      (mode ++ [power] ++ fan ++ [swing] ++ [sleep] ++ temp ++ zeros 8 ++ [turbo, light, tree, blow] ++ const) →
    ∃ r : ProtocolFields,
      r.modeCode.toNat = assemble s.params.fieldOrder mode ∧
      r.fanCode.toNat = assemble s.params.fieldOrder fan ∧
      r.tempCode.toNat = assemble s.params.fieldOrder temp ∧ r.csum = 0 ∧ r.blade = 0 ∧
      lsbFirst r.flags 7 = [power, swing, sleep, turbo, light, tree, blow] ∧
      exec .rx s = .next (withAccept r
        ⟨if power then decMode r.modeCode else 0, decFan r.fanCode, if swing then 2 else 0, decTemp r.tempCode⟩ s)

/-- spec/42_frame_decoder.md R154, R155, R151 and spec/60_exceptions.md R236, R239: the reject reasons of a Variant
A attempt, each at the first check that fails in wire order. -/
def Obligations.VariantARejectReasons : Prop :=
  ∀ s : State, s.variant = .a →
    (pairMatches s.params s.rxcap 0 6050 7450 = false → exec .rx s = .next (withReject .header s)) ∧
    (∀ (front : List Bool) (j : Nat), front.length = 12 → j < 8 →
      spells s.params s.rxcap (front ++ zeros j ++ [true]) → exec .rx s = .next (withReject .pad s)) ∧
    (∀ bits : List Bool, bits.length < 35 → (∀ k, 12 ≤ k → k < 20 → bits[k]? ≠ some true) →
      spells s.params s.rxcap bits →
      pairMatches s.params s.rxcap (bits.length + 1) 660 1630 = false →
      pairMatches s.params s.rxcap (bits.length + 1) 660 530 = false →
      exec .rx s = .next (withReject .symbol s)) ∧
    (∀ front status const : List Bool, front.length = 12 → status.length = 4 → const.length = 11 →
      spells s.params s.rxcap (front ++ zeros 8 ++ status ++ const) →
      assemble s.params.constOrder const ≠ 0x250 → exec .rx s = .next (withReject .const s))

/-- spec/42_frame_decoder.md R160, R162, R163: a capture that spells the header and 16 bytes, each first symbol
least significant, of which the first five are the header bytes, is recognized: RAWB holds the bytes, FIELDS the
zero record, and (OFF, AUTO, OFF, 16.0) is published, which the spec marks as derived. -/
def Obligations.RxRecognizesVariantB : Prop :=
  ∀ (s : State) (b : List Byte), s.variant = .b → b.length = 16 → b.take 5 = [0x11, 0xDA, 0x17, 0x18, 0x00] →
    spells s.params s.rxcap (b.flatMap fun x => lsbFirst x 8) →
    ∃ w0 w1 w2 w3 : Word,
      (∀ j : Nat, j < 4 →
        b[j]? = some (w0.extractLsb' (8 * j) 8) ∧ b[4 + j]? = some (w1.extractLsb' (8 * j) 8) ∧
        b[8 + j]? = some (w2.extractLsb' (8 * j) 8) ∧ b[12 + j]? = some (w3.extractLsb' (8 * j) 8)) ∧
      exec .rx s = .next (withAccept .zero ⟨0, 2, 0, 0x41800000⟩
        { s with rawb0 := w0, rawb1 := w1, rawb2 := w2, rawb3 := w3 })

/-- spec/42_frame_decoder.md R161, R151: the reject reasons of a Variant B attempt. Byte k of 0..4 is compared
as soon as its eighth symbol is read, whatever follows; the 88 symbols after must be symbols. -/
def Obligations.VariantBRejectReasons : Prop :=
  ∀ s : State, s.variant = .b →
    (pairMatches s.params s.rxcap 0 6050 7450 = false → exec .rx s = .next (withReject .header s)) ∧
    (∀ (k : Nat) (x : Byte), k < 5 →
      spells s.params s.rxcap
        (((([0x11, 0xDA, 0x17, 0x18, 0x00] : List Byte).take k) ++ [x]).flatMap fun y => lsbFirst y 8) →
      ([0x11, 0xDA, 0x17, 0x18, 0x00] : List Byte)[k]? ≠ some x →
      exec .rx s = .next (withReject .hdrByte s)) ∧
    (∀ (b : List Byte) (part : List Bool), b.length < 16 → part.length < 8 →
      b.take 5 = (([0x11, 0xDA, 0x17, 0x18, 0x00] : List Byte).take b.length) →
      spells s.params s.rxcap ((b.flatMap fun x => lsbFirst x 8) ++ part) →
      pairMatches s.params s.rxcap (8 * b.length + part.length + 1) 660 1630 = false →
      pairMatches s.params s.rxcap (8 * b.length + part.length + 1) 660 530 = false →
      exec .rx s = .next (withReject .symbol s))

/-- spec/42_frame_decoder.md R167: RX never changes RXCAP or RXLEN, and two RX over the same RXCAP, under the same
CTRL and parameters, have the same outcome, whatever else the two states hold: the same ERR, ACC and REASON, and
where the frame is recognized the same FIELDS, CLIMATE and TARGET, the same element of PUBQ and, in Variant B, the
same RAWB (Variant A leaves RAWB as it was). -/
def Obligations.RxRepeatsItsOutcome : Prop :=
  ∀ s s' t : State, s'.rxcap = s.rxcap → s'.variant = s.variant → s'.params = s.params → exec .rx s = .next t →
    t.rxcap = s.rxcap ∧ readReg .rxlen t = readReg .rxlen s ∧
    ∃ t', exec .rx s' = .next t' ∧
      t'.status.err = t.status.err ∧ t'.status.acc = t.status.acc ∧ t'.status.reason = t.status.reason ∧
      (t.status.acc = true →
        t'.fields = t.fields ∧ t'.climate = t.climate ∧ t'.target = t.target ∧
        (∃ x, t.pubq = s.pubq ++ [x] ∧ t'.pubq = s'.pubq ++ [x]) ∧
        (s.variant = .b →
          t'.rawb0 = t.rawb0 ∧ t'.rawb1 = t.rawb1 ∧ t'.rawb2 = t.rawb2 ∧ t'.rawb3 = t.rawb3) ∧
        (s.variant = .a →
          t.rawb0 = s.rawb0 ∧ t.rawb1 = s.rawb1 ∧ t.rawb2 = s.rawb2 ∧ t.rawb3 = s.rawb3))

/-- spec/70_reset_and_hazards.md section 3 (loopback), spec/42_frame_decoder.md section 2: under RXA_CONST_ORDER =
BY_INDEX and any conformant MATCH (log 10), the capture of a frame that a Variant A TX just sent is rejected with
CONST. -/
def Obligations.OwnVariantAFrameIsRejectedByIndex : Prop :=
  ∀ (s t : State) (items : List Item), paramsConformant s.params = true → s.variant = .a →
    s.params.constOrder = .byIndex → climateReady s →
    exec .tx s = .next t → t.txq = s.txq ++ [⟨38000, items⟩] →
    exec .rx { t with rxcap := captured items } =
      .next (withReject .const { t with rxcap := captured items })

/-- spec/70_reset_and_hazards.md section 3 (loopback): with RXA_CONST_ORDER = MSB_FIRST and RXA_FIELD_ORDER =
BY_INDEX, under any conformant MATCH (log 10), the capture of a frame that a Variant A TX just sent is recognized, and
gives back the transmitted mode, fan, swing and temperature codes and flags, the temperature in its low 4 bits;
the climate mode, fan and swing come back where the mapper has them, and the temperature unless its code was 16. -/
def Obligations.OwnVariantAFrameLoopsBack : Prop :=
  ∀ (s t : State) (items : List Item), paramsConformant s.params = true → s.variant = .a →
    s.params.constOrder = .msbFirst → s.params.fieldOrder = .byIndex → climateReady s →
    exec .tx s = .next t → t.txq = s.txq ++ [⟨38000, items⟩] →
    ∃ u, exec .rx { t with rxcap := captured items } = .next u ∧ u.status.acc = true ∧
      u.fields.modeCode = t.fields.modeCode ∧ u.fields.fanCode = t.fields.fanCode ∧
      u.fields.flags = t.fields.flags ∧ u.fields.tempCode.toNat = t.fields.tempCode.toNat % 16 ∧
      u.fields.csum = 0 ∧ u.fields.blade = 0 ∧
      (s.climate.mode ∈ [modeOff, modeHeatCool, modeCool, modeDry, modeFanOnly, modeHeat] →
        u.climate.mode = s.climate.mode) ∧
      (s.climate.fan ∈ [fanAuto, fanLow, fanMedium, fanHigh] → u.climate.fan = s.climate.fan) ∧
      (s.climate.swing ∈ [swingOff, swingVertical] → u.climate.swing = s.climate.swing) ∧
      (t.fields.tempCode ≠ 16 → u.target = decTemp t.fields.tempCode)

/-- spec/30_encoding.md section 4, spec/70_reset_and_hazards.md section 3 (loopback): the Variant B decoder rejects
every frame the Variant B encoder makes, with HDRBYTE, under any conformant parameters (log 10). -/
def Obligations.OwnVariantBFrameIsRejected : Prop :=
  ∀ (s t : State) (items : List Item), paramsConformant s.params = true → s.variant = .b → climateReady s →
    exec .tx s = .next t → t.txq = s.txq ++ [⟨38000, items⟩] →
    exec .rx { t with rxcap := captured items } =
      .next (withReject .hdrByte { t with rxcap := captured items })

/-- spec/70_reset_and_hazards.md R273: the windows of the default MATCH. -/
def Obligations.DefaultMatchWindows : Prop :=
  ∀ d : Nat, (matchAccepts defaultMatch d 6050 = true ↔ 4538 ≤ d ∧ d ≤ 7562) ∧
    (matchAccepts defaultMatch d 7450 = true ↔ 5588 ≤ d ∧ d ≤ 9312) ∧
    (matchAccepts defaultMatch d 660 = true ↔ 495 ≤ d ∧ d ≤ 825) ∧
    (matchAccepts defaultMatch d 1630 = true ↔ 1223 ≤ d ∧ d ≤ 2037) ∧
    (matchAccepts defaultMatch d 530 = true ↔ 398 ≤ d ∧ d ≤ 662)

/-! ## Register window -/

/-- spec/10_state.md R31, spec/20_memory.md R65 and R63: the sixteen offsets of the window; a read returns the
register at its offset (0 for CMD, RXPUSH and 0x2C) and changes nothing of the block. Where the host's value goes is
the model's choice (log 5). -/
def Obligations.ReadsReturnTheRegisterOnly : Prop :=
  ∀ (s : State) (rest : List Input) (off : Nat) (r : Reg),
    (off, r) ∈ [(0x00, Reg.ctrl), (0x04, .cmd), (0x08, .arg), (0x0C, .result), (0x10, .status), (0x14, .climate),
      (0x18, .target), (0x1C, .fields), (0x20, .blade), (0x24, .rxpush), (0x28, .rxlen), (0x2C, .unmapped),
      (0x30, .rawb0), (0x34, .rawb1), (0x38, .rawb2), (0x3C, .rawb3)] →
    regOffset r = off ∧
      (s.inputs = .read (s.params.base + off) .bits32 :: rest →
        step s = .next { s with inputs := rest, reads := s.reads ++ [readReg r s] }) ∧
      (r = .cmd ∨ r = .rxpush ∨ r = .unmapped → readReg r s = 0)

/-- spec/20_memory.md R63: a write to a read-only register or to 0x2C is ignored. -/
def Obligations.ReadOnlyWritesAreIgnored : Prop :=
  ∀ (s : State) (rest : List Input) (r : Reg) (v : Word),
    r ∈ [Reg.result, .status, .blade, .rxlen, .rawb0, .rawb1, .rawb2, .rawb3, .unmapped] →
    s.inputs = .write (s.params.base + regOffset r) .bits32 v :: rest →
    step s = .next { s with inputs := rest }

/-- spec/10_state.md section 2 and spec/20_memory.md section 2: a write to CTRL, ARG, CLIMATE, TARGET or FIELDS
reads back with the reserved bits 0; CLIMATE and TARGET become valid; no other register and no stream changes. -/
def Obligations.WritesReadBackMasked : Prop :=
  ∀ (s : State) (rest : List Input) (r : Reg) (v mask : Word),
    (r, mask) ∈ [(Reg.ctrl, 0x00000001), (.arg, 0xFFFFFFFF), (.climate, 0x000003F7), (.target, 0xFFFFFFFF),
      (.fields, 0x7FFF1F37)] →
    s.inputs = .write (s.params.base + regOffset r) .bits32 v :: rest →
    ∃ t, step s = .next t ∧ readReg r t = v &&& mask ∧
      (∀ q : Reg, q ≠ r → q ≠ .status → readReg q t = readReg q s) ∧
      t.status = { s.status with
        cv := s.status.cv || decide (r = .climate)
        tv := s.status.tv || decide (r = .target) } ∧
      t.blade = s.blade ∧ t.rxcap = s.rxcap ∧ t.txq = s.txq ∧ t.pubq = s.pubq ∧ t.inputs = rest ∧
      t.reads = s.reads ∧ t.params = s.params

/-- spec/10_state.md R41 (RXPUSH): a push appends its pair while the buffer has room, and otherwise appends nothing
and sets RXOVF. The bound 256 is R7's, fixed by the model (log 13). -/
def Obligations.RxpushAppendsOrOverflows : Prop :=
  ∀ (s : State) (rest : List Input) (v : Word),
    s.inputs = .write (s.params.base + 0x24) .bits32 v :: rest →
    (s.rxcap.length < 256 → ∃ x : Pulse, x.mark.toNat = v.toNat % 65536 ∧ x.space.toNat = v.toNat / 65536 ∧
      step s = .next { s with inputs := rest, rxcap := s.rxcap ++ [x] }) ∧
    (256 ≤ s.rxcap.length →
      step s = .next { s with inputs := rest, status := { s.status with rxovf := true } })

/-- spec/10_state.md R37, with the codes of spec/60_exceptions.md R231 and R236: the layout of STATUS, reserved bits
0. -/
def Obligations.StatusLayout : Prop :=
  (errCode .none = 0 ∧ errCode .illegalCmd = 1 ∧ errCode .badOperand = 2 ∧ errCode .uninit = 3 ∧
    errCode .badTemp = 4) ∧
  (reasonCode .none = 0 ∧ reasonCode .header = 1 ∧ reasonCode .symbol = 2 ∧ reasonCode .pad = 3 ∧
    reasonCode .const = 4 ∧ reasonCode .hdrByte = 5) ∧
  ∀ s : State,
    (readReg .status s).extractLsb' 0 4 = errCode s.status.err ∧
    (readReg .status s).getLsbD 4 = s.status.acc ∧
    (readReg .status s).extractLsb' 8 3 = reasonCode s.status.reason ∧
    (readReg .status s).getLsbD 16 = s.status.cv ∧
    (readReg .status s).getLsbD 17 = s.status.tv ∧
    (readReg .status s).getLsbD 18 = s.status.rxovf ∧
    (readReg .status s).getLsbD 24 = s.status.errseen ∧
    readReg .status s &&& 0xFEF8F8E0 = 0

/-- spec/10_state.md section 2: the layouts of CTRL, CLIMATE, FIELDS, BLADE and RXLEN, reserved bits 0; that ARG,
RESULT, TARGET and RAWB0 to RAWB3 read the whole words the state holds; and that what a write of CTRL, CLIMATE or
FIELDS stores is what reads back. -/
def Obligations.RegisterLayouts : Prop :=
  ∀ s : State,
    (readReg .fields s).extractLsb' 0 3 = s.fields.modeCode ∧
    (readReg .fields s).extractLsb' 4 2 = s.fields.fanCode ∧
    (readReg .fields s).extractLsb' 8 5 = s.fields.tempCode ∧
    (readReg .fields s).extractLsb' 16 4 = s.fields.csum ∧
    (readReg .fields s).extractLsb' 20 4 = s.fields.blade ∧
    (readReg .fields s).extractLsb' 24 7 = s.fields.flags ∧
    readReg .fields s &&& 0x8000E0C8 = 0 ∧ fieldsOfWord (readReg .fields s) = s.fields ∧
    (readReg .climate s).extractLsb' 0 3 = s.climate.mode ∧
    (readReg .climate s).extractLsb' 4 4 = s.climate.fan ∧
    (readReg .climate s).extractLsb' 8 2 = s.climate.swing ∧
    readReg .climate s &&& 0xFFFFFC08 = 0 ∧ climateOfWord (readReg .climate s) = s.climate ∧
    (readReg .ctrl s).getLsbD 0 = decide (s.variant = .b) ∧
    readReg .ctrl s &&& 0xFFFFFFFE = 0 ∧ variantOfWord (readReg .ctrl s) = s.variant ∧
    readReg .arg s = s.arg ∧ readReg .result s = s.result ∧ readReg .target s = s.target ∧
    readReg .rawb0 s = s.rawb0 ∧ readReg .rawb1 s = s.rawb1 ∧ readReg .rawb2 s = s.rawb2 ∧
    readReg .rawb3 s = s.rawb3 ∧
    (readReg .blade s).toNat = (bladeCode s.params s.blade).toNat ∧
    (s.rxcap.length < 65536 → (readReg .rxlen s).toNat = s.rxcap.length)

/-- spec/20_memory.md R62 and R60: a step has a next state exactly when nothing is pending or the next input is a
reset or an admitted access, 32 bits wide at a multiple of 4 in the window; no step is refused. What the model
does outside the window is its own choice (log 7). -/
def Obligations.OnlyAdmittedAccessesStep : Prop :=
  ∀ s : State, ((∃ t, step s = .next t) ↔ ∀ i rest, s.inputs = i :: rest → admittedInput s.params i) ∧
    ∀ x, step s ≠ .refused x

/-- spec/20_memory.md R61: nothing depends on BASE. An access at the same offset from another BASE does the
same. -/
def Obligations.NothingDependsOnBase : Prop :=
  ∀ (s t : State) (rest : List Input) (off base : Nat) (v : Word),
    (s.inputs = .write (s.params.base + off) .bits32 v :: rest → step s = .next t →
      step { s with params := { s.params with base := base }, inputs := .write (base + off) .bits32 v :: rest } =
        .next { t with params := { t.params with base := base } }) ∧
    (s.inputs = .read (s.params.base + off) .bits32 :: rest → step s = .next t →
      step { s with params := { s.params with base := base }, inputs := .read (base + off) .bits32 :: rest } =
        .next { t with params := { t.params with base := base } })
end

