-- ==== Sys2Proof/Laws/Codec.lean ====
section
/-! SUPPORT. What the Bit Codec's functions do: the bits of an assembled value, the bits of reverseBits, and the
symbols each emission sends. -/

namespace Sys2Proof.Machine

theorem byIndex_lt (s : List Bool) : byIndex s < 2 ^ s.length := by
  induction s with
  | nil => simp [byIndex]
  | cons b rest ih =>
    have hb := b.toNat_lt
    simp only [byIndex, List.length_cons, pow_succ]
    omega

theorem testBit_byIndex (s : List Bool) (i : Nat) : (byIndex s).testBit i = s.getD i false := by
  induction s generalizing i with
  | nil => simp [byIndex]
  | cons b rest ih =>
    cases i with
    | zero => cases b <;> simp [byIndex, Nat.testBit_zero, Nat.add_mod]
    | succ i =>
      have h : (b.toNat + 2 * byIndex rest) / 2 = byIndex rest := by
        have := b.toNat_lt
        omega
      rw [byIndex, Nat.testBit_succ, h, ih]
      rfl

/-- Bit i of a value assembled by index is symbol i. -/
theorem getLsbD_ofNat_byIndex (n : Nat) (s : List Bool) (i : Nat) (hi : i < n) :
    (BitVec.ofNat n (byIndex s)).getLsbD i = s.getD i false := by
  rw [BitVec.getLsbD_ofNat, testBit_byIndex]
  simp [hi]

/-- The bits of reverseBits (spec/40_bit_codec.md R110). -/
theorem getLsbD_reverseBits (v : Word) (len i : Nat) (hi : i < 32) :
    (reverseBits v len).getLsbD i = reversedBit v len i := by
  rw [reverseBits, getLsbD_ofNat_byIndex _ _ _ hi]
  simp [List.getD, hi]

/-- A value assembled by index from its own low bits, least significant first, is the value. -/
theorem ofNat_byIndex_lsbFirst {n : Nat} (v : BitVec n) : BitVec.ofNat n (byIndex (lsbFirst v n)) = v := by
  apply BitVec.eq_of_getLsbD_eq
  intro i hi
  rw [getLsbD_ofNat_byIndex _ _ _ hi]
  simp [lsbFirst, List.getD, hi]

theorem byIndex_lsbFirst {n : Nat} (v : BitVec n) : byIndex (lsbFirst v n) = v.toNat := by
  have h := congrArg BitVec.toNat (ofNat_byIndex_lsbFirst v)
  have hl : (lsbFirst v n).length = n := by simp [lsbFirst]
  rwa [BitVec.toNat_ofNat, Nat.mod_eq_of_lt (by simpa [hl] using byIndex_lt (lsbFirst v n))] at h

@[simp] theorem length_lsbFirst {w : Nat} (v : BitVec w) (n : Nat) : (lsbFirst v n).length = n := by
  simp [lsbFirst]

@[simp] theorem length_mostFirst {w : Nat} (v : BitVec w) (n : Nat) : (mostFirst v n).length = n := by
  simp [mostFirst]

@[simp] theorem length_zeros (n : Nat) : (zeros n).length = n := by simp [zeros]

@[simp] theorem symbols_nil : symbols [] = [] := rfl

@[simp] theorem symbols_append (a b : List Bool) : symbols (a ++ b) = symbols a ++ symbols b := by
  simp [symbols]

@[simp] theorem length_symbols (bits : List Bool) : (symbols bits).length = 2 * bits.length := by
  induction bits with
  | nil => rfl
  | cons b rest ih => simp only [symbols, List.flatMap_cons, List.length_append, List.length_cons,
      List.length_nil] at ih ⊢; omega

theorem symbolItems_eq (b : Bool) : symbolItems b = symbols [b] := by
  cases b <;> rfl

theorem emitBit_eq (v : Word) : emitBit v = symbols [v.getLsbD 0] := symbolItems_eq _

/-- emitBits sends the low bits most significant first (spec/40_bit_codec.md R112). -/
theorem emitBits_eq (v : Word) (n : Nat) : emitBits v n = symbols (mostFirst v n) := by
  induction n with
  | zero => rfl
  | succ n ih =>
    have h : mostFirst v (n + 1) = [v.getLsbD n] ++ mostFirst v n := by
      simp only [mostFirst, List.range_succ_eq_map, List.map_cons, List.map_map]
      simp [Function.comp_def, Nat.sub_sub, Nat.add_comm]
    rw [emitBits, ih, emitBit_eq, h, symbols_append]
    simp

/-- emitReversedBits sends the low bits least significant first (spec/40_bit_codec.md R115). -/
theorem emitReversedBits_eq (v : Word) (n : Nat) (hn : n ≤ 32) :
    emitReversedBits v n = symbols (lsbFirst v n) := by
  rw [emitReversedBits, emitBits_eq]
  refine congrArg symbols (List.ext_getElem (by simp only [length_mostFirst, length_lsbFirst]) ?_)
  intro j h1 h2
  simp only [length_mostFirst] at h1
  have hj : n - 1 - j < n := by omega
  have hk : n - 1 - (n - 1 - j) = j := by omega
  simp only [mostFirst, lsbFirst, List.getElem_map, List.getElem_range,
    getLsbD_reverseBits v n _ (show n - 1 - j < 32 by omega), reversedBit, hj, hk, if_true]

/-- A narrow field widened to 32 bits sends its own low bits. -/
theorem lsbFirst_setWidth {w : Nat} (v : BitVec w) (n : Nat) (hn : n ≤ 32) :
    lsbFirst (v.setWidth 32) n = lsbFirst v n := by
  apply List.map_congr_left
  intro i hi
  have : i < 32 := by have := List.mem_range.mp hi; omega
  simp [this]

/-- A field of zeros sends zeros in either order (spec/30_encoding.md R87). -/
theorem mostFirst_zero (n : Nat) : mostFirst (0 : Word) n = zeros n := by
  apply List.ext_getElem (by simp)
  intro j h1 h2
  simp [mostFirst, zeros]

theorem framed_eq (bits : List Bool) : framed bits = headerItems ++ symbols bits ++ trailerItems := rfl

end Sys2Proof.Machine
end

