-- ==== Sys2Proof/Laws/Frames.lean ====
section
/-! SUPPORT. The two transmitted frames as symbol sequences (spec/30_encoding.md R88, R90), and what every
transmission looks like. -/

namespace Sys2Proof.Machine

theorem symbols_constA : lsbFirst constATx 11 =
    [false, true, false, false, true, false, true, false, false, false, false] := by decide

theorem symbols_thermoSel : lsbFirst thermoSel 2 = [false, true] := by decide

theorem symbols_constB : mostFirst constB 8 =
    [true, false, true, false, false, true, false, true] := by decide

/-- The Variant A frame spells the layout of spec/30_encoding.md R88. -/
theorem frameA_eq (r : ProtocolFields) (code : BitVec 4) :
    frameA r code =
      framed (layoutA r.modeCode (powerFlag r) r.fanCode (swingFlag r) r.tempCode code r.csum) := by
  simp [frameA, framed_eq, layoutA, emitReversedBits_eq, lsbFirst_setWidth, symbolItems_eq, emitBit_eq,
    emitBits_eq, symbols_constA, symbols_thermoSel, -BitVec.ofNat_eq_ofNat]
  rfl

/-- The Variant B frame spells the layout of spec/30_encoding.md R90. -/
theorem frameB_eq (r : ProtocolFields) :
    frameB r = framed (layoutB r.modeCode (powerFlag r) r.fanCode r.tempCode r.csum) := by
  simp [frameB, framed_eq, layoutB, emitReversedBits_eq, lsbFirst_setWidth, symbolItems_eq, emitBit_eq,
    emitBits_eq, symbols_constB, -BitVec.ofNat_eq_ofNat]
  rfl

theorem alternates_symbols_append (bits : List Bool) (rest : List Item) :
    alternates (symbols bits ++ rest) = alternates rest := by
  induction bits with
  | nil => rfl
  | cons b more ih =>
    have h : symbols (b :: more) ++ rest =
        .mark 660 :: .space (if b then 1630 else 530) :: (symbols more ++ rest) := by
      simp [symbols]
    rw [h, alternates, ih]
    simp [isMark]

/-- The items of a bare symbol sequence alternate, a MARK first. -/
theorem alternates_symbols (bits : List Bool) : alternates (symbols bits) = true := by
  simpa [alternates] using alternates_symbols_append bits []

/-- The items of a frame alternate, a MARK first and last (spec/30_encoding.md R89, R91). -/
theorem alternates_framed (bits : List Bool) : alternates (framed bits) = true := by
  have h : framed bits = .mark 6050 :: .space 7450 ::
      (symbols bits ++ [.mark 530, .space 7450, .mark 530]) := by
    simp [framed]
  rw [h, alternates, alternates_symbols_append]
  simp [isMark, alternates]

end Sys2Proof.Machine
end

