-- ==== Sys2Proof/Laws/State.lean ====
section
/-! SUPPORT. What each named operation leaves in each field of State: one lemma a field, true by rfl, so that no
proof unfolds a record update. -/

namespace Sys2Proof.Machine

section raiseFields

variable (c : ErrCode) (s : State)

@[simp] theorem raise_variant : (raise c s).variant = s.variant := rfl
@[simp] theorem raise_arg : (raise c s).arg = s.arg := rfl
@[simp] theorem raise_result : (raise c s).result = s.result := rfl
@[simp] theorem raise_status : (raise c s).status = statusRaised c s.status := rfl
@[simp] theorem raise_climate : (raise c s).climate = s.climate := rfl
@[simp] theorem raise_target : (raise c s).target = s.target := rfl
@[simp] theorem raise_fields : (raise c s).fields = s.fields := rfl
@[simp] theorem raise_blade : (raise c s).blade = s.blade := rfl
@[simp] theorem raise_rxcap : (raise c s).rxcap = s.rxcap := rfl
@[simp] theorem raise_rawb0 : (raise c s).rawb0 = s.rawb0 := rfl
@[simp] theorem raise_rawb1 : (raise c s).rawb1 = s.rawb1 := rfl
@[simp] theorem raise_rawb2 : (raise c s).rawb2 = s.rawb2 := rfl
@[simp] theorem raise_rawb3 : (raise c s).rawb3 = s.rawb3 := rfl
@[simp] theorem raise_txq : (raise c s).txq = s.txq := rfl
@[simp] theorem raise_pubq : (raise c s).pubq = s.pubq := rfl
@[simp] theorem raise_reads : (raise c s).reads = s.reads := rfl
@[simp] theorem raise_inputs : (raise c s).inputs = s.inputs := rfl
@[simp] theorem raise_params : (raise c s).params = s.params := rfl

end raiseFields

section completeFields

variable (s : State)

@[simp] theorem complete_variant : (complete s).variant = s.variant := rfl
@[simp] theorem complete_arg : (complete s).arg = s.arg := rfl
@[simp] theorem complete_result : (complete s).result = s.result := rfl
@[simp] theorem complete_status : (complete s).status = statusCompleted s.status := rfl
@[simp] theorem complete_climate : (complete s).climate = s.climate := rfl
@[simp] theorem complete_target : (complete s).target = s.target := rfl
@[simp] theorem complete_fields : (complete s).fields = s.fields := rfl
@[simp] theorem complete_blade : (complete s).blade = s.blade := rfl
@[simp] theorem complete_rxcap : (complete s).rxcap = s.rxcap := rfl
@[simp] theorem complete_rawb0 : (complete s).rawb0 = s.rawb0 := rfl
@[simp] theorem complete_rawb1 : (complete s).rawb1 = s.rawb1 := rfl
@[simp] theorem complete_rawb2 : (complete s).rawb2 = s.rawb2 := rfl
@[simp] theorem complete_rawb3 : (complete s).rawb3 = s.rawb3 := rfl
@[simp] theorem complete_txq : (complete s).txq = s.txq := rfl
@[simp] theorem complete_pubq : (complete s).pubq = s.pubq := rfl
@[simp] theorem complete_reads : (complete s).reads = s.reads := rfl
@[simp] theorem complete_inputs : (complete s).inputs = s.inputs := rfl
@[simp] theorem complete_params : (complete s).params = s.params := rfl

end completeFields

section setResultFields

variable (v : Word) (s : State)

@[simp] theorem setResult_variant : (setResult v s).variant = s.variant := rfl
@[simp] theorem setResult_arg : (setResult v s).arg = s.arg := rfl
@[simp] theorem setResult_result : (setResult v s).result = v := rfl
@[simp] theorem setResult_status : (setResult v s).status = s.status := rfl
@[simp] theorem setResult_climate : (setResult v s).climate = s.climate := rfl
@[simp] theorem setResult_target : (setResult v s).target = s.target := rfl
@[simp] theorem setResult_fields : (setResult v s).fields = s.fields := rfl
@[simp] theorem setResult_blade : (setResult v s).blade = s.blade := rfl
@[simp] theorem setResult_rxcap : (setResult v s).rxcap = s.rxcap := rfl
@[simp] theorem setResult_rawb0 : (setResult v s).rawb0 = s.rawb0 := rfl
@[simp] theorem setResult_rawb1 : (setResult v s).rawb1 = s.rawb1 := rfl
@[simp] theorem setResult_rawb2 : (setResult v s).rawb2 = s.rawb2 := rfl
@[simp] theorem setResult_rawb3 : (setResult v s).rawb3 = s.rawb3 := rfl
@[simp] theorem setResult_txq : (setResult v s).txq = s.txq := rfl
@[simp] theorem setResult_pubq : (setResult v s).pubq = s.pubq := rfl
@[simp] theorem setResult_reads : (setResult v s).reads = s.reads := rfl
@[simp] theorem setResult_inputs : (setResult v s).inputs = s.inputs := rfl
@[simp] theorem setResult_params : (setResult v s).params = s.params := rfl

end setResultFields

section setFieldsFields

variable (r : ProtocolFields) (s : State)

@[simp] theorem setFields_variant : (setFields r s).variant = s.variant := rfl
@[simp] theorem setFields_arg : (setFields r s).arg = s.arg := rfl
@[simp] theorem setFields_result : (setFields r s).result = s.result := rfl
@[simp] theorem setFields_status : (setFields r s).status = s.status := rfl
@[simp] theorem setFields_climate : (setFields r s).climate = s.climate := rfl
@[simp] theorem setFields_target : (setFields r s).target = s.target := rfl
@[simp] theorem setFields_fields : (setFields r s).fields = r := rfl
@[simp] theorem setFields_blade : (setFields r s).blade = s.blade := rfl
@[simp] theorem setFields_rxcap : (setFields r s).rxcap = s.rxcap := rfl
@[simp] theorem setFields_rawb0 : (setFields r s).rawb0 = s.rawb0 := rfl
@[simp] theorem setFields_rawb1 : (setFields r s).rawb1 = s.rawb1 := rfl
@[simp] theorem setFields_rawb2 : (setFields r s).rawb2 = s.rawb2 := rfl
@[simp] theorem setFields_rawb3 : (setFields r s).rawb3 = s.rawb3 := rfl
@[simp] theorem setFields_txq : (setFields r s).txq = s.txq := rfl
@[simp] theorem setFields_pubq : (setFields r s).pubq = s.pubq := rfl
@[simp] theorem setFields_reads : (setFields r s).reads = s.reads := rfl
@[simp] theorem setFields_inputs : (setFields r s).inputs = s.inputs := rfl
@[simp] theorem setFields_params : (setFields r s).params = s.params := rfl

end setFieldsFields

section setBladeFields

variable (b : BladePos) (s : State)

@[simp] theorem setBlade_variant : (setBlade b s).variant = s.variant := rfl
@[simp] theorem setBlade_arg : (setBlade b s).arg = s.arg := rfl
@[simp] theorem setBlade_result : (setBlade b s).result = s.result := rfl
@[simp] theorem setBlade_status : (setBlade b s).status = s.status := rfl
@[simp] theorem setBlade_climate : (setBlade b s).climate = s.climate := rfl
@[simp] theorem setBlade_target : (setBlade b s).target = s.target := rfl
@[simp] theorem setBlade_fields : (setBlade b s).fields = s.fields := rfl
@[simp] theorem setBlade_blade : (setBlade b s).blade = b := rfl
@[simp] theorem setBlade_rxcap : (setBlade b s).rxcap = s.rxcap := rfl
@[simp] theorem setBlade_rawb0 : (setBlade b s).rawb0 = s.rawb0 := rfl
@[simp] theorem setBlade_rawb1 : (setBlade b s).rawb1 = s.rawb1 := rfl
@[simp] theorem setBlade_rawb2 : (setBlade b s).rawb2 = s.rawb2 := rfl
@[simp] theorem setBlade_rawb3 : (setBlade b s).rawb3 = s.rawb3 := rfl
@[simp] theorem setBlade_txq : (setBlade b s).txq = s.txq := rfl
@[simp] theorem setBlade_pubq : (setBlade b s).pubq = s.pubq := rfl
@[simp] theorem setBlade_reads : (setBlade b s).reads = s.reads := rfl
@[simp] theorem setBlade_inputs : (setBlade b s).inputs = s.inputs := rfl
@[simp] theorem setBlade_params : (setBlade b s).params = s.params := rfl

end setBladeFields

section transmitFields

variable (l : List Item) (s : State)

@[simp] theorem transmit_variant : (transmit l s).variant = s.variant := rfl
@[simp] theorem transmit_arg : (transmit l s).arg = s.arg := rfl
@[simp] theorem transmit_result : (transmit l s).result = s.result := rfl
@[simp] theorem transmit_status : (transmit l s).status = s.status := rfl
@[simp] theorem transmit_climate : (transmit l s).climate = s.climate := rfl
@[simp] theorem transmit_target : (transmit l s).target = s.target := rfl
@[simp] theorem transmit_fields : (transmit l s).fields = s.fields := rfl
@[simp] theorem transmit_blade : (transmit l s).blade = s.blade := rfl
@[simp] theorem transmit_rxcap : (transmit l s).rxcap = s.rxcap := rfl
@[simp] theorem transmit_rawb0 : (transmit l s).rawb0 = s.rawb0 := rfl
@[simp] theorem transmit_rawb1 : (transmit l s).rawb1 = s.rawb1 := rfl
@[simp] theorem transmit_rawb2 : (transmit l s).rawb2 = s.rawb2 := rfl
@[simp] theorem transmit_rawb3 : (transmit l s).rawb3 = s.rawb3 := rfl
@[simp] theorem transmit_txq : (transmit l s).txq = s.txq ++ [{ carrier := carrierHz, items := l }] := rfl
@[simp] theorem transmit_pubq : (transmit l s).pubq = s.pubq := rfl
@[simp] theorem transmit_reads : (transmit l s).reads = s.reads := rfl
@[simp] theorem transmit_inputs : (transmit l s).inputs = s.inputs := rfl
@[simp] theorem transmit_params : (transmit l s).params = s.params := rfl

end transmitFields

section publishFields

variable (x : Published) (s : State)

@[simp] theorem publish_variant : (publish x s).variant = s.variant := rfl
@[simp] theorem publish_arg : (publish x s).arg = s.arg := rfl
@[simp] theorem publish_result : (publish x s).result = s.result := rfl
@[simp] theorem publish_status : (publish x s).status = s.status := rfl
@[simp] theorem publish_climate : (publish x s).climate = s.climate := rfl
@[simp] theorem publish_target : (publish x s).target = s.target := rfl
@[simp] theorem publish_fields : (publish x s).fields = s.fields := rfl
@[simp] theorem publish_blade : (publish x s).blade = s.blade := rfl
@[simp] theorem publish_rxcap : (publish x s).rxcap = s.rxcap := rfl
@[simp] theorem publish_rawb0 : (publish x s).rawb0 = s.rawb0 := rfl
@[simp] theorem publish_rawb1 : (publish x s).rawb1 = s.rawb1 := rfl
@[simp] theorem publish_rawb2 : (publish x s).rawb2 = s.rawb2 := rfl
@[simp] theorem publish_rawb3 : (publish x s).rawb3 = s.rawb3 := rfl
@[simp] theorem publish_txq : (publish x s).txq = s.txq := rfl
@[simp] theorem publish_pubq : (publish x s).pubq = s.pubq ++ [x] := rfl
@[simp] theorem publish_reads : (publish x s).reads = s.reads := rfl
@[simp] theorem publish_inputs : (publish x s).inputs = s.inputs := rfl
@[simp] theorem publish_params : (publish x s).params = s.params := rfl

end publishFields

section commitClimateFields

variable (x : Published) (s : State)

@[simp] theorem commitClimate_variant : (commitClimate x s).variant = s.variant := rfl
@[simp] theorem commitClimate_arg : (commitClimate x s).arg = s.arg := rfl
@[simp] theorem commitClimate_result : (commitClimate x s).result = s.result := rfl
@[simp] theorem commitClimate_status :
    (commitClimate x s).status = statusTargetValid (statusClimateValid s.status) := rfl
@[simp] theorem commitClimate_climate :
    (commitClimate x s).climate = { mode := x.mode, fan := x.fan, swing := x.swing } := rfl
@[simp] theorem commitClimate_target : (commitClimate x s).target = x.target := rfl
@[simp] theorem commitClimate_fields : (commitClimate x s).fields = s.fields := rfl
@[simp] theorem commitClimate_blade : (commitClimate x s).blade = s.blade := rfl
@[simp] theorem commitClimate_rxcap : (commitClimate x s).rxcap = s.rxcap := rfl
@[simp] theorem commitClimate_rawb0 : (commitClimate x s).rawb0 = s.rawb0 := rfl
@[simp] theorem commitClimate_rawb1 : (commitClimate x s).rawb1 = s.rawb1 := rfl
@[simp] theorem commitClimate_rawb2 : (commitClimate x s).rawb2 = s.rawb2 := rfl
@[simp] theorem commitClimate_rawb3 : (commitClimate x s).rawb3 = s.rawb3 := rfl
@[simp] theorem commitClimate_txq : (commitClimate x s).txq = s.txq := rfl
@[simp] theorem commitClimate_pubq : (commitClimate x s).pubq = s.pubq ++ [x] := rfl
@[simp] theorem commitClimate_reads : (commitClimate x s).reads = s.reads := rfl
@[simp] theorem commitClimate_inputs : (commitClimate x s).inputs = s.inputs := rfl
@[simp] theorem commitClimate_params : (commitClimate x s).params = s.params := rfl

end commitClimateFields

section setRawBytesFields

variable (l : List Byte) (s : State)

@[simp] theorem setRawBytes_variant : (setRawBytes l s).variant = s.variant := rfl
@[simp] theorem setRawBytes_arg : (setRawBytes l s).arg = s.arg := rfl
@[simp] theorem setRawBytes_result : (setRawBytes l s).result = s.result := rfl
@[simp] theorem setRawBytes_status : (setRawBytes l s).status = s.status := rfl
@[simp] theorem setRawBytes_climate : (setRawBytes l s).climate = s.climate := rfl
@[simp] theorem setRawBytes_target : (setRawBytes l s).target = s.target := rfl
@[simp] theorem setRawBytes_fields : (setRawBytes l s).fields = s.fields := rfl
@[simp] theorem setRawBytes_blade : (setRawBytes l s).blade = s.blade := rfl
@[simp] theorem setRawBytes_rxcap : (setRawBytes l s).rxcap = s.rxcap := rfl
@[simp] theorem setRawBytes_rawb0 :
    (setRawBytes l s).rawb0 = rawWord (l.getD 0 0) (l.getD 1 0) (l.getD 2 0) (l.getD 3 0) := rfl
@[simp] theorem setRawBytes_rawb1 :
    (setRawBytes l s).rawb1 = rawWord (l.getD 4 0) (l.getD 5 0) (l.getD 6 0) (l.getD 7 0) := rfl
@[simp] theorem setRawBytes_rawb2 :
    (setRawBytes l s).rawb2 = rawWord (l.getD 8 0) (l.getD 9 0) (l.getD 10 0) (l.getD 11 0) := rfl
@[simp] theorem setRawBytes_rawb3 :
    (setRawBytes l s).rawb3 = rawWord (l.getD 12 0) (l.getD 13 0) (l.getD 14 0) (l.getD 15 0) := rfl
@[simp] theorem setRawBytes_txq : (setRawBytes l s).txq = s.txq := rfl
@[simp] theorem setRawBytes_pubq : (setRawBytes l s).pubq = s.pubq := rfl
@[simp] theorem setRawBytes_reads : (setRawBytes l s).reads = s.reads := rfl
@[simp] theorem setRawBytes_inputs : (setRawBytes l s).inputs = s.inputs := rfl
@[simp] theorem setRawBytes_params : (setRawBytes l s).params = s.params := rfl

end setRawBytesFields

section clearCaptureFields

variable (s : State)

@[simp] theorem clearCapture_variant : (clearCapture s).variant = s.variant := rfl
@[simp] theorem clearCapture_arg : (clearCapture s).arg = s.arg := rfl
@[simp] theorem clearCapture_result : (clearCapture s).result = s.result := rfl
@[simp] theorem clearCapture_status : (clearCapture s).status = statusOverflowCleared s.status := rfl
@[simp] theorem clearCapture_climate : (clearCapture s).climate = s.climate := rfl
@[simp] theorem clearCapture_target : (clearCapture s).target = s.target := rfl
@[simp] theorem clearCapture_fields : (clearCapture s).fields = s.fields := rfl
@[simp] theorem clearCapture_blade : (clearCapture s).blade = s.blade := rfl
@[simp] theorem clearCapture_rxcap : (clearCapture s).rxcap = [] := rfl
@[simp] theorem clearCapture_rawb0 : (clearCapture s).rawb0 = s.rawb0 := rfl
@[simp] theorem clearCapture_rawb1 : (clearCapture s).rawb1 = s.rawb1 := rfl
@[simp] theorem clearCapture_rawb2 : (clearCapture s).rawb2 = s.rawb2 := rfl
@[simp] theorem clearCapture_rawb3 : (clearCapture s).rawb3 = s.rawb3 := rfl
@[simp] theorem clearCapture_txq : (clearCapture s).txq = s.txq := rfl
@[simp] theorem clearCapture_pubq : (clearCapture s).pubq = s.pubq := rfl
@[simp] theorem clearCapture_reads : (clearCapture s).reads = s.reads := rfl
@[simp] theorem clearCapture_inputs : (clearCapture s).inputs = s.inputs := rfl
@[simp] theorem clearCapture_params : (clearCapture s).params = s.params := rfl

end clearCaptureFields

section rejectFrameFields

variable (r : Reason) (s : State)

@[simp] theorem rejectFrame_variant : (rejectFrame r s).variant = s.variant := rfl
@[simp] theorem rejectFrame_arg : (rejectFrame r s).arg = s.arg := rfl
@[simp] theorem rejectFrame_result : (rejectFrame r s).result = s.result := rfl
@[simp] theorem rejectFrame_status :
    (rejectFrame r s).status = statusCompleted (statusRejected r s.status) := rfl
@[simp] theorem rejectFrame_climate : (rejectFrame r s).climate = s.climate := rfl
@[simp] theorem rejectFrame_target : (rejectFrame r s).target = s.target := rfl
@[simp] theorem rejectFrame_fields : (rejectFrame r s).fields = s.fields := rfl
@[simp] theorem rejectFrame_blade : (rejectFrame r s).blade = s.blade := rfl
@[simp] theorem rejectFrame_rxcap : (rejectFrame r s).rxcap = s.rxcap := rfl
@[simp] theorem rejectFrame_rawb0 : (rejectFrame r s).rawb0 = s.rawb0 := rfl
@[simp] theorem rejectFrame_rawb1 : (rejectFrame r s).rawb1 = s.rawb1 := rfl
@[simp] theorem rejectFrame_rawb2 : (rejectFrame r s).rawb2 = s.rawb2 := rfl
@[simp] theorem rejectFrame_rawb3 : (rejectFrame r s).rawb3 = s.rawb3 := rfl
@[simp] theorem rejectFrame_txq : (rejectFrame r s).txq = s.txq := rfl
@[simp] theorem rejectFrame_pubq : (rejectFrame r s).pubq = s.pubq := rfl
@[simp] theorem rejectFrame_reads : (rejectFrame r s).reads = s.reads := rfl
@[simp] theorem rejectFrame_inputs : (rejectFrame r s).inputs = s.inputs := rfl
@[simp] theorem rejectFrame_params : (rejectFrame r s).params = s.params := rfl

end rejectFrameFields

section acceptFrameFields

variable (r : ProtocolFields) (s : State)

@[simp] theorem acceptFrame_variant : (acceptFrame r s).variant = s.variant := rfl
@[simp] theorem acceptFrame_arg : (acceptFrame r s).arg = s.arg := rfl
@[simp] theorem acceptFrame_result : (acceptFrame r s).result = s.result := rfl
@[simp] theorem acceptFrame_status :
    (acceptFrame r s).status = statusCompleted (statusAccepted (statusTargetValid (statusClimateValid s.status))) := rfl
@[simp] theorem acceptFrame_climate :
    (acceptFrame r s).climate = { mode := (decodeRecord r).mode, fan := (decodeRecord r).fan, swing := (decodeRecord r).swing } := rfl
@[simp] theorem acceptFrame_target : (acceptFrame r s).target = (decodeRecord r).target := rfl
@[simp] theorem acceptFrame_fields : (acceptFrame r s).fields = r := rfl
@[simp] theorem acceptFrame_blade : (acceptFrame r s).blade = s.blade := rfl
@[simp] theorem acceptFrame_rxcap : (acceptFrame r s).rxcap = s.rxcap := rfl
@[simp] theorem acceptFrame_rawb0 : (acceptFrame r s).rawb0 = s.rawb0 := rfl
@[simp] theorem acceptFrame_rawb1 : (acceptFrame r s).rawb1 = s.rawb1 := rfl
@[simp] theorem acceptFrame_rawb2 : (acceptFrame r s).rawb2 = s.rawb2 := rfl
@[simp] theorem acceptFrame_rawb3 : (acceptFrame r s).rawb3 = s.rawb3 := rfl
@[simp] theorem acceptFrame_txq : (acceptFrame r s).txq = s.txq := rfl
@[simp] theorem acceptFrame_pubq : (acceptFrame r s).pubq = s.pubq ++ [decodeRecord r] := rfl
@[simp] theorem acceptFrame_reads : (acceptFrame r s).reads = s.reads := rfl
@[simp] theorem acceptFrame_inputs : (acceptFrame r s).inputs = s.inputs := rfl
@[simp] theorem acceptFrame_params : (acceptFrame r s).params = s.params := rfl

end acceptFrameFields

section readBusFields

variable (r : Reg) (s : State)

@[simp] theorem readBus_variant : (readBus r s).variant = s.variant := rfl
@[simp] theorem readBus_arg : (readBus r s).arg = s.arg := rfl
@[simp] theorem readBus_result : (readBus r s).result = s.result := rfl
@[simp] theorem readBus_status : (readBus r s).status = s.status := rfl
@[simp] theorem readBus_climate : (readBus r s).climate = s.climate := rfl
@[simp] theorem readBus_target : (readBus r s).target = s.target := rfl
@[simp] theorem readBus_fields : (readBus r s).fields = s.fields := rfl
@[simp] theorem readBus_blade : (readBus r s).blade = s.blade := rfl
@[simp] theorem readBus_rxcap : (readBus r s).rxcap = s.rxcap := rfl
@[simp] theorem readBus_rawb0 : (readBus r s).rawb0 = s.rawb0 := rfl
@[simp] theorem readBus_rawb1 : (readBus r s).rawb1 = s.rawb1 := rfl
@[simp] theorem readBus_rawb2 : (readBus r s).rawb2 = s.rawb2 := rfl
@[simp] theorem readBus_rawb3 : (readBus r s).rawb3 = s.rawb3 := rfl
@[simp] theorem readBus_txq : (readBus r s).txq = s.txq := rfl
@[simp] theorem readBus_pubq : (readBus r s).pubq = s.pubq := rfl
@[simp] theorem readBus_reads : (readBus r s).reads = s.reads ++ [readReg r s] := rfl
@[simp] theorem readBus_inputs : (readBus r s).inputs = s.inputs := rfl
@[simp] theorem readBus_params : (readBus r s).params = s.params := rfl

end readBusFields

section applyResetFields

variable (s : State)

@[simp] theorem applyReset_variant : (applyReset s).variant = State.reset.variant := rfl
@[simp] theorem applyReset_arg : (applyReset s).arg = State.reset.arg := rfl
@[simp] theorem applyReset_result : (applyReset s).result = State.reset.result := rfl
@[simp] theorem applyReset_status : (applyReset s).status = State.reset.status := rfl
@[simp] theorem applyReset_climate : (applyReset s).climate = State.reset.climate := rfl
@[simp] theorem applyReset_target : (applyReset s).target = State.reset.target := rfl
@[simp] theorem applyReset_fields : (applyReset s).fields = State.reset.fields := rfl
@[simp] theorem applyReset_blade : (applyReset s).blade = State.reset.blade := rfl
@[simp] theorem applyReset_rxcap : (applyReset s).rxcap = State.reset.rxcap := rfl
@[simp] theorem applyReset_rawb0 : (applyReset s).rawb0 = State.reset.rawb0 := rfl
@[simp] theorem applyReset_rawb1 : (applyReset s).rawb1 = State.reset.rawb1 := rfl
@[simp] theorem applyReset_rawb2 : (applyReset s).rawb2 = State.reset.rawb2 := rfl
@[simp] theorem applyReset_rawb3 : (applyReset s).rawb3 = State.reset.rawb3 := rfl
@[simp] theorem applyReset_txq : (applyReset s).txq = s.txq := rfl
@[simp] theorem applyReset_pubq : (applyReset s).pubq = s.pubq := rfl
@[simp] theorem applyReset_reads : (applyReset s).reads = s.reads := rfl
@[simp] theorem applyReset_inputs : (applyReset s).inputs = s.inputs := rfl
@[simp] theorem applyReset_params : (applyReset s).params = s.params := rfl

end applyResetFields

section statusRaisedFields

variable (c : ErrCode) (x : Status)

@[simp] theorem statusRaised_err : (statusRaised c x).err = c := rfl
@[simp] theorem statusRaised_acc : (statusRaised c x).acc = x.acc := rfl
@[simp] theorem statusRaised_reason : (statusRaised c x).reason = x.reason := rfl
@[simp] theorem statusRaised_cv : (statusRaised c x).cv = x.cv := rfl
@[simp] theorem statusRaised_tv : (statusRaised c x).tv = x.tv := rfl
@[simp] theorem statusRaised_rxovf : (statusRaised c x).rxovf = x.rxovf := rfl
@[simp] theorem statusRaised_errseen : (statusRaised c x).errseen = true := rfl

end statusRaisedFields

section statusCompletedFields

variable (x : Status)

@[simp] theorem statusCompleted_err : (statusCompleted x).err = .none := rfl
@[simp] theorem statusCompleted_acc : (statusCompleted x).acc = x.acc := rfl
@[simp] theorem statusCompleted_reason : (statusCompleted x).reason = x.reason := rfl
@[simp] theorem statusCompleted_cv : (statusCompleted x).cv = x.cv := rfl
@[simp] theorem statusCompleted_tv : (statusCompleted x).tv = x.tv := rfl
@[simp] theorem statusCompleted_rxovf : (statusCompleted x).rxovf = x.rxovf := rfl
@[simp] theorem statusCompleted_errseen : (statusCompleted x).errseen = x.errseen := rfl

end statusCompletedFields

section statusRejectedFields

variable (r : Reason) (x : Status)

@[simp] theorem statusRejected_err : (statusRejected r x).err = x.err := rfl
@[simp] theorem statusRejected_acc : (statusRejected r x).acc = false := rfl
@[simp] theorem statusRejected_reason : (statusRejected r x).reason = r := rfl
@[simp] theorem statusRejected_cv : (statusRejected r x).cv = x.cv := rfl
@[simp] theorem statusRejected_tv : (statusRejected r x).tv = x.tv := rfl
@[simp] theorem statusRejected_rxovf : (statusRejected r x).rxovf = x.rxovf := rfl
@[simp] theorem statusRejected_errseen : (statusRejected r x).errseen = x.errseen := rfl

end statusRejectedFields

section statusAcceptedFields

variable (x : Status)

@[simp] theorem statusAccepted_err : (statusAccepted x).err = x.err := rfl
@[simp] theorem statusAccepted_acc : (statusAccepted x).acc = true := rfl
@[simp] theorem statusAccepted_reason : (statusAccepted x).reason = .none := rfl
@[simp] theorem statusAccepted_cv : (statusAccepted x).cv = x.cv := rfl
@[simp] theorem statusAccepted_tv : (statusAccepted x).tv = x.tv := rfl
@[simp] theorem statusAccepted_rxovf : (statusAccepted x).rxovf = x.rxovf := rfl
@[simp] theorem statusAccepted_errseen : (statusAccepted x).errseen = x.errseen := rfl

end statusAcceptedFields

section statusClimateValidFields

variable (x : Status)

@[simp] theorem statusClimateValid_err : (statusClimateValid x).err = x.err := rfl
@[simp] theorem statusClimateValid_acc : (statusClimateValid x).acc = x.acc := rfl
@[simp] theorem statusClimateValid_reason : (statusClimateValid x).reason = x.reason := rfl
@[simp] theorem statusClimateValid_cv : (statusClimateValid x).cv = true := rfl
@[simp] theorem statusClimateValid_tv : (statusClimateValid x).tv = x.tv := rfl
@[simp] theorem statusClimateValid_rxovf : (statusClimateValid x).rxovf = x.rxovf := rfl
@[simp] theorem statusClimateValid_errseen : (statusClimateValid x).errseen = x.errseen := rfl

end statusClimateValidFields

section statusTargetValidFields

variable (x : Status)

@[simp] theorem statusTargetValid_err : (statusTargetValid x).err = x.err := rfl
@[simp] theorem statusTargetValid_acc : (statusTargetValid x).acc = x.acc := rfl
@[simp] theorem statusTargetValid_reason : (statusTargetValid x).reason = x.reason := rfl
@[simp] theorem statusTargetValid_cv : (statusTargetValid x).cv = x.cv := rfl
@[simp] theorem statusTargetValid_tv : (statusTargetValid x).tv = true := rfl
@[simp] theorem statusTargetValid_rxovf : (statusTargetValid x).rxovf = x.rxovf := rfl
@[simp] theorem statusTargetValid_errseen : (statusTargetValid x).errseen = x.errseen := rfl

end statusTargetValidFields

section statusOverflowedFields

variable (x : Status)

@[simp] theorem statusOverflowed_err : (statusOverflowed x).err = x.err := rfl
@[simp] theorem statusOverflowed_acc : (statusOverflowed x).acc = x.acc := rfl
@[simp] theorem statusOverflowed_reason : (statusOverflowed x).reason = x.reason := rfl
@[simp] theorem statusOverflowed_cv : (statusOverflowed x).cv = x.cv := rfl
@[simp] theorem statusOverflowed_tv : (statusOverflowed x).tv = x.tv := rfl
@[simp] theorem statusOverflowed_rxovf : (statusOverflowed x).rxovf = true := rfl
@[simp] theorem statusOverflowed_errseen : (statusOverflowed x).errseen = x.errseen := rfl

end statusOverflowedFields

section statusOverflowClearedFields

variable (x : Status)

@[simp] theorem statusOverflowCleared_err : (statusOverflowCleared x).err = x.err := rfl
@[simp] theorem statusOverflowCleared_acc : (statusOverflowCleared x).acc = x.acc := rfl
@[simp] theorem statusOverflowCleared_reason : (statusOverflowCleared x).reason = x.reason := rfl
@[simp] theorem statusOverflowCleared_cv : (statusOverflowCleared x).cv = x.cv := rfl
@[simp] theorem statusOverflowCleared_tv : (statusOverflowCleared x).tv = x.tv := rfl
@[simp] theorem statusOverflowCleared_rxovf : (statusOverflowCleared x).rxovf = false := rfl
@[simp] theorem statusOverflowCleared_errseen : (statusOverflowCleared x).errseen = x.errseen := rfl

end statusOverflowClearedFields

end Sys2Proof.Machine
end

