-- ==== Sys2Proof/Laws/Operands.lean ====
section
/-! SUPPORT. What the operand forms can do: one lemma for each way a command's checks end. -/

namespace Sys2Proof.Machine

theorem withLength_long {len : Nat} {effect : State → State} {s : State} (h : 32 < len) :
    withLength len effect s = raise .badOperand s := by
  simp [withLength, maxLen, h]

theorem withLength_short {len : Nat} {effect : State → State} {s : State} (h : len ≤ 32) :
    withLength len effect s = complete (effect s) := by
  simp [withLength, maxLen, Nat.not_lt.mpr h]

variable {α : Type} {operand : Climate → Word → Option α} {effect : α → State → State} {s : State}

theorem withClimate_uninit (h : s.status.cv = false ∨ s.status.tv = false) :
    withClimate operand effect s = raise .uninit s := by
  rcases h with h | h <;> simp [withClimate, h]

theorem withClimate_badTemp (hc : s.status.cv = true) (ht : s.status.tv = true)
    (h : operand s.climate s.target = none) : withClimate operand effect s = raise .badTemp s := by
  simp [withClimate, hc, ht, h]

theorem withClimate_ready {x : α} (hc : s.status.cv = true) (ht : s.status.tv = true)
    (h : operand s.climate s.target = some x) : withClimate operand effect s = complete (effect x s) := by
  simp [withClimate, hc, ht, h]

/-- All a command that reads CLIMATE and TARGET can do: raise one of the two errors, or complete its effect. -/
theorem withClimate_cases :
    withClimate operand effect s = raise .uninit s ∨ withClimate operand effect s = raise .badTemp s ∨
      ∃ x, operand s.climate s.target = some x ∧ withClimate operand effect s = complete (effect x s) := by
  unfold withClimate
  split
  · split
    · exact .inr (.inl rfl)
    · next x hx => exact .inr (.inr ⟨x, hx, rfl⟩)
  · exact .inl rfl

/-- All a command with a LEN operand can do. -/
theorem withLength_cases (len : Nat) (f : State → State) (s : State) :
    withLength len f s = raise .badOperand s ∨ (len ≤ 32 ∧ withLength len f s = complete (f s)) := by
  by_cases h : 32 < len
  · exact .inl (withLength_long h)
  · exact .inr ⟨Nat.not_lt.mp h, withLength_short (Nat.not_lt.mp h)⟩

end Sys2Proof.Machine
end

