-- ==== Sys2Proof/Laws/Commands.lean ====
section
/-! SUPPORT. All each command can do, said once: its next state is an error's, or the completed effect. Claims
over all commands cite these and never unfold a meaning. -/

namespace Sys2Proof.Machine

variable {s t : State}

/-- RX ends in a reject or in an acceptance; the second leaves RAWB to Variant B. -/
theorem receiveA_cases (s : State) :
    (∃ r, receiveA s = rejectFrame r s) ∨ ∃ f, receiveA s = acceptFrame f s := by
  unfold receiveA
  split
  · exact .inr ⟨_, rfl⟩
  · exact .inl ⟨_, rfl⟩

theorem receiveB_cases (s : State) :
    (∃ r, receiveB s = rejectFrame r s) ∨
      ∃ bytes pos, rxB s.params s.rxcap = .found bytes pos ∧
        receiveB s = acceptFrame .zero (setRawBytes bytes s) := by
  unfold receiveB
  split
  · next b q h => exact .inr ⟨b, q, h, rfl⟩
  · exact .inl ⟨_, rfl⟩

/-- The next state of each command: the error it raises, or its completed effect. -/
theorem exec_cases {i : Instr} (h : exec i s = .next t) :
    (∃ code, code ≠ .none ∧ i ≠ .nop ∧ i ≠ .rx ∧ i ≠ .rxclr ∧ i ≠ .mapdec ∧ i ≠ .csum ∧ i ≠ .emitb ∧
      t = raise code s) ∨
    (i = .nop ∧ t = complete s) ∨
    (∃ n, i = .rev n ∧ n ≤ 32 ∧ t = complete (setResult (reverseBits s.arg n) s)) ∨
    (i = .emitb ∧ t = complete (transmit (emitBit s.arg) s)) ∨
    (∃ n, i = .emitn n ∧ n ≤ 32 ∧ t = complete (transmit (emitBits s.arg n) s)) ∨
    (∃ n, i = .emitr n ∧ n ≤ 32 ∧ t = complete (transmit (emitReversedBits s.arg n) s)) ∨
    (i = .mapenc ∧ ∃ r, encodeRecord s.climate s.target = some r ∧ t = complete (setFields r s)) ∨
    (i = .mapdec ∧ t = complete (commitClimate (decodeRecord s.fields) s)) ∨
    (i = .csum ∧ ∃ v, t = complete (setResult v s)) ∨
    (i = .csumv ∧ ∃ v, t = complete (setResult v s)) ∨
    (i = .blnext ∧ ∃ v, t = complete (setResult v s)) ∨
    (i = .tx ∧ s.variant = .a ∧ ∃ r, encodeRecord s.climate s.target = some r ∧ t = complete (txA r s)) ∨
    (i = .tx ∧ s.variant = .b ∧ ∃ r, encodeRecord s.climate s.target = some r ∧ t = complete (txB r s)) ∨
    (i = .rx ∧ s.variant = .a ∧ t = receiveA s) ∨
    (i = .rx ∧ s.variant = .b ∧ t = receiveB s) ∨
    (i = .rxclr ∧ t = complete (clearCapture s)) := by
  cases i with
  | nop => simp_all [exec, execNop]
  | rev n =>
    simp only [exec, execRev, Host.Outcome.next.injEq] at h
    rcases withLength_cases n (setResult (reverseBits s.arg n)) s with e | ⟨hn, e⟩ <;> rw [e] at h
    · exact .inl ⟨.badOperand, by simp [← h]⟩
    · simp [hn, ← h]
  | emitb => simp_all [exec, execEmitb]
  | emitn n =>
    simp only [exec, execEmitn, Host.Outcome.next.injEq] at h
    rcases withLength_cases n (transmit (emitBits s.arg n)) s with e | ⟨hn, e⟩ <;> rw [e] at h
    · exact .inl ⟨.badOperand, by simp [← h]⟩
    · simp [hn, ← h]
  | emitr n =>
    simp only [exec, execEmitr, Host.Outcome.next.injEq] at h
    rcases withLength_cases n (transmit (emitReversedBits s.arg n)) s with e | ⟨hn, e⟩ <;> rw [e] at h
    · exact .inl ⟨.badOperand, by simp [← h]⟩
    · simp [hn, ← h]
  | mapenc =>
    simp only [exec, execMapenc, Host.Outcome.next.injEq] at h
    rcases withClimate_cases (operand := encodeRecord) (effect := setFields) (s := s) with
      e | e | ⟨x, hx, e⟩ <;> rw [e] at h
    · exact .inl ⟨.uninit, by simp [← h]⟩
    · exact .inl ⟨.badTemp, by simp [← h]⟩
    · simp [hx, ← h]
  | mapdec => simp_all [exec, execMapdec]
  | csum =>
    simp only [exec, execCsum, Host.Outcome.next.injEq] at h
    simp only [reduceCtorEq, ne_eq, not_true_eq_false, false_and, and_false, exists_false, false_or, true_and,
      or_false]
    exact ⟨_, h.symm⟩
  | csumv =>
    simp only [exec, execCsumv, Host.Outcome.next.injEq] at h
    rcases withClimate_cases (operand := verifyChecksum s.arg)
      (effect := fun ok => setResult (if ok then 1 else 0)) (s := s) with e | e | ⟨x, hx, e⟩ <;> rw [e] at h
    · exact .inl ⟨.uninit, by simp [← h]⟩
    · exact .inl ⟨.badTemp, by simp [← h]⟩
    · simp only [reduceCtorEq, false_and, exists_false, false_or, true_and, or_false]
      exact .inr ⟨_, h.symm⟩
  | blnext =>
    simp only [exec, execBlnext] at h
    split at h
    · simp only [Host.Outcome.next.injEq] at h
      exact .inl ⟨.badOperand, by simp [← h]⟩
    · simp only [Host.Outcome.next.injEq] at h
      simp only [reduceCtorEq, false_and, exists_false, false_or, true_and, or_false]
      exact .inr ⟨_, h.symm⟩
  | tx =>
    simp only [exec, execTx, Host.Outcome.next.injEq] at h
    rcases withClimate_cases (operand := encodeRecord) (effect := transmitFrame) (s := s) with
      e | e | ⟨x, hx, e⟩ <;> rw [e] at h
    · exact .inl ⟨.uninit, by simp [← h]⟩
    · exact .inl ⟨.badTemp, by simp [← h]⟩
    · cases hv : s.variant <;> simp [hx, ← h, transmitFrame, hv]
  | rx =>
    cases hv : s.variant <;> simp_all [exec, execRx]
  | rxclr => simp_all [exec, execRxclr]

end Sys2Proof.Machine
end

