-- ==== Sys2Proof/Laws/Decoder.lean ====
section
/-! SUPPORT. What each reader of the Frame Decoder does when the capture spells what it reads, and when it does
not (spec/42_frame_decoder.md R151, R152, R154). -/

namespace Sys2Proof.Machine

variable (p : Params) (cap : List Pulse)

@[simp] theorem andThen_found {α β : Type} (v : α) (pos : Nat) (k : α → Nat → Scan β) :
    andThen (.found v pos) k = k v pos := rfl

@[simp] theorem andThen_rejected {α β : Type} (r : Reason) (pos : Nat) (k : α → Nat → Scan β) :
    andThen (.rejected r pos : Scan α) k = .rejected r pos := rfl

theorem readHeader_found {pos : Nat} (h : pairMatches p cap pos 6050 7450 = true) :
    readHeader p cap pos = .found () (pos + 1) := by
  simp [readHeader, expect, hdrMark, hdrSpace, h]

theorem readHeader_rejected {pos : Nat} (h : pairMatches p cap pos 6050 7450 = false) :
    readHeader p cap pos = .rejected .header pos := by
  simp [readHeader, expect, hdrMark, hdrSpace, h]

theorem readBit_found {pos : Nat} {b : Bool} (h : isSymbol p cap pos b) :
    readBit p cap pos = .found b (pos + 1) := by
  cases b with
  | true =>
    have h' : pairMatches p cap pos 660 1630 = true := by simpa [isSymbol] using h
    simp [readBit, expect, bitMark, oneSpace, h']
  | false =>
    have h' : pairMatches p cap pos 660 1630 = false ∧ pairMatches p cap pos 660 530 = true := by
      simpa [isSymbol] using h
    simp [readBit, expect, bitMark, oneSpace, zeroSpace, h'.1, h'.2]

theorem readBit_rejected {pos : Nat} (h1 : pairMatches p cap pos 660 1630 = false)
    (h0 : pairMatches p cap pos 660 530 = false) : readBit p cap pos = .rejected .symbol pos := by
  simp [readBit, expect, bitMark, oneSpace, zeroSpace, h1, h0]

theorem spellsFrom_nil (pos : Nat) : spellsFrom p cap pos [] := by
  intro i b h
  simp at h

theorem spellsFrom_cons {pos : Nat} {b : Bool} {bits : List Bool} :
    spellsFrom p cap pos (b :: bits) ↔ isSymbol p cap pos b ∧ spellsFrom p cap (pos + 1) bits := by
  constructor
  · intro h
    refine ⟨by simpa using h 0 b rfl, fun i c hc => ?_⟩
    have := h (i + 1) c (by simpa using hc)
    rwa [show pos + (i + 1) = pos + 1 + i by omega] at this
  · rintro ⟨h0, h⟩ i c hc
    cases i with
    | zero => simp at hc; subst hc; simpa using h0
    | succ i =>
      have := h i c (by simpa using hc)
      rwa [show pos + 1 + i = pos + (i + 1) by omega] at this

theorem spellsFrom_append {pos : Nat} {a b : List Bool} :
    spellsFrom p cap pos (a ++ b) ↔ spellsFrom p cap pos a ∧ spellsFrom p cap (pos + a.length) b := by
  induction a generalizing pos with
  | nil => simp [spellsFrom_nil]
  | cons x rest ih =>
    simp only [List.cons_append, spellsFrom_cons, ih, List.length_cons, and_assoc]
    rw [show pos + 1 + rest.length = pos + (rest.length + 1) by omega]

/-- As many symbols as the capture spells are read as they stand (spec/42_frame_decoder.md R152). -/
theorem readBits_found {pos : Nat} {bits : List Bool} (h : spellsFrom p cap pos bits) :
    readBits p cap bits.length pos = .found bits (pos + bits.length) := by
  induction bits generalizing pos with
  | nil => rfl
  | cons b rest ih =>
    obtain ⟨h0, h1⟩ := (spellsFrom_cons p cap).mp h
    simp [readBits, readBit_found p cap h0, ih h1]
    omega

theorem readBits_found' {pos n : Nat} {bits : List Bool} (hn : bits.length = n)
    (h : spellsFrom p cap pos bits) : readBits p cap n pos = .found bits (pos + n) := by
  subst hn
  exact readBits_found p cap h

theorem readField_found {pos n : Nat} {bits : List Bool} (order : AccumOrder) (hn : bits.length = n)
    (h : spellsFrom p cap pos bits) :
    readField p cap n order pos = .found (assemble order bits) (pos + n) := by
  simp [readField, readBits_found' p cap hn h]

/-- A pair that is no symbol ends the reading of a field at that pair. -/
theorem readBits_rejected {pos n : Nat} {bits : List Bool} (hn : bits.length < n)
    (h : spellsFrom p cap pos bits)
    (h1 : pairMatches p cap (pos + bits.length) 660 1630 = false)
    (h0 : pairMatches p cap (pos + bits.length) 660 530 = false) :
    readBits p cap n pos = .rejected .symbol (pos + bits.length) := by
  induction bits generalizing pos n with
  | nil =>
    obtain ⟨m, rfl⟩ : ∃ m, n = m + 1 := ⟨n - 1, by simp at hn; omega⟩
    simp [readBits, readBit_rejected p cap (by simpa using h1) (by simpa using h0)]
  | cons b rest ih =>
    obtain ⟨m, rfl⟩ : ∃ m, n = m + 1 := ⟨n - 1, by simp at hn; omega⟩
    obtain ⟨hb, hr⟩ := (spellsFrom_cons p cap).mp h
    have e : pos + (rest.length + 1) = pos + 1 + rest.length := by omega
    simp only [List.length_cons, e] at h1 h0 ⊢
    have hm : rest.length < m := by simpa using hn
    simp [readBits, readBit_found p cap hb, ih hm hr h1 h0]

theorem readField_rejected {pos n : Nat} {bits : List Bool} (order : AccumOrder) (hn : bits.length < n)
    (h : spellsFrom p cap pos bits)
    (h1 : pairMatches p cap (pos + bits.length) 660 1630 = false)
    (h0 : pairMatches p cap (pos + bits.length) 660 530 = false) :
    readField p cap n order pos = .rejected .symbol (pos + bits.length) := by
  simp [readField, readBits_rejected p cap hn h h1 h0]

/-- A pad of zeros is read to its end. -/
theorem readPad_found {pos n : Nat} (h : spellsFrom p cap pos (zeros n)) :
    readPad p cap n pos = .found () (pos + n) := by
  induction n generalizing pos with
  | zero => rfl
  | succ n ih =>
    rw [show zeros (n + 1) = false :: zeros n from rfl] at h
    obtain ⟨h0, h1⟩ := (spellsFrom_cons p cap).mp h
    simp [readPad, readBit_found p cap h0, ih h1]
    omega

/-- The first 1 in a pad rejects the frame there (spec/42_frame_decoder.md R154). -/
theorem readPad_one {pos n j : Nat} (hj : j < n) (h : spellsFrom p cap pos (zeros j ++ [true])) :
    readPad p cap n pos = .rejected .pad (pos + j + 1) := by
  induction j generalizing pos n with
  | zero =>
    obtain ⟨m, rfl⟩ : ∃ m, n = m + 1 := ⟨n - 1, by omega⟩
    have h0 := ((spellsFrom_cons p cap).mp h).1
    simp [readPad, readBit_found p cap h0]
  | succ j ih =>
    obtain ⟨m, rfl⟩ : ∃ m, n = m + 1 := ⟨n - 1, by omega⟩
    rw [show zeros (j + 1) ++ [true] = false :: (zeros j ++ [true]) from rfl] at h
    obtain ⟨h0, h1⟩ := (spellsFrom_cons p cap).mp h
    simp [readPad, readBit_found p cap h0, ih (show j < m by omega) h1]
    omega

/-- A pair that is no symbol rejects a pad there. -/
theorem readPad_symbol {pos n j : Nat} (hj : j < n) (h : spellsFrom p cap pos (zeros j))
    (h1 : pairMatches p cap (pos + j) 660 1630 = false) (h0 : pairMatches p cap (pos + j) 660 530 = false) :
    readPad p cap n pos = .rejected .symbol (pos + j) := by
  induction j generalizing pos n with
  | zero =>
    obtain ⟨m, rfl⟩ : ∃ m, n = m + 1 := ⟨n - 1, by omega⟩
    rw [Nat.add_zero] at h1 h0 ⊢
    rw [readPad, readBit_rejected p cap h1 h0]
    rfl
  | succ j ih =>
    obtain ⟨m, rfl⟩ : ∃ m, n = m + 1 := ⟨n - 1, by omega⟩
    rw [show zeros (j + 1) = false :: zeros j from rfl] at h
    obtain ⟨hb, hr⟩ := (spellsFrom_cons p cap).mp h
    rw [show pos + (j + 1) = pos + 1 + j by omega] at h1 h0 ⊢
    simp [readPad, readBit_found p cap hb, ih (show j < m by omega) hr h1 h0]

/-- One byte of a Variant B frame (spec/30_encoding.md R95). -/
theorem readBytes_step {pos : Nat} {b : Byte} (required : Option Byte) (more : List (Option Byte))
    (h : spellsFrom p cap pos (lsbFirst b 8)) :
    readBytes p cap (required :: more) pos =
      if required.all (fun x => b == x) then
        andThen (readBytes p cap more (pos + 8)) fun rest pos => .found (b :: rest) pos
      else .rejected .hdrByte (pos + 8) := by
  simp [readBytes, readBits_found' p cap (length_lsbFirst b 8) h, ofNat_byIndex_lsbFirst]

/-- A frame whose bytes are all as required is read to its end. -/
theorem readBytes_found {pos : Nat} {b : List Byte} {required : List (Option Byte)}
    (hl : b.length = required.length)
    (hr : ∀ (k : Nat) x h, required[k]? = some (some h) → b[k]? = some x → x = h)
    (h : spellsFrom p cap pos (b.flatMap fun x => lsbFirst x 8)) :
    readBytes p cap required pos = .found b (pos + 8 * b.length) := by
  induction b generalizing pos required with
  | nil =>
    cases required with
    | nil => rfl
    | cons => simp at hl
  | cons x rest ih =>
    cases required with
    | nil => simp at hl
    | cons q more =>
      simp only [List.flatMap_cons, spellsFrom_append, length_lsbFirst] at h
      have hq : q.all (fun y => x == y) = true := by
        cases q with
        | none => rfl
        | some y => simpa using hr 0 x y rfl rfl
      have := ih (required := more) (by simpa using hl) (fun k y z hk hy => hr (k + 1) y z hk hy) h.2
      rw [readBytes_step p cap q more h.1, if_pos hq, this]
      simp
      omega

/-- The first byte that is not as required rejects the frame once it is read (spec/42_frame_decoder.md R161). -/
theorem readBytes_mismatch {pos : Nat} {b : List Byte} {x y : Byte} {required more : List (Option Byte)}
    (hl : b.length = required.length)
    (hr : ∀ (k : Nat) z h, required[k]? = some (some h) → b[k]? = some z → z = h) (hxy : x ≠ y)
    (h : spellsFrom p cap pos ((b ++ [x]).flatMap fun z => lsbFirst z 8)) :
    readBytes p cap (required ++ some y :: more) pos = .rejected .hdrByte (pos + 8 * b.length + 8) := by
  induction b generalizing pos required with
  | nil =>
    cases required with
    | nil =>
      have h' : spellsFrom p cap pos (lsbFirst x 8) := by simpa using h
      simp [readBytes_step p cap (some y) more h', hxy]
    | cons => simp at hl
  | cons z rest ih =>
    cases required with
    | nil => simp at hl
    | cons q rest' =>
      simp only [List.cons_append, List.flatMap_cons, spellsFrom_append, length_lsbFirst] at h
      have hq : q.all (fun y => z == y) = true := by
        cases q with
        | none => rfl
        | some y => simpa using hr 0 z y rfl rfl
      have := ih (required := rest') (by simpa using hl) (fun k y z hk hy => hr (k + 1) y z hk hy) h.2
      rw [List.cons_append, readBytes_step p cap q _ h.1, if_pos hq, this]
      simp
      omega

/-- A pair that is no symbol inside the bytes rejects the frame there. -/
theorem readBytes_symbol {pos : Nat} {b : List Byte} {part : List Bool} {required : List (Option Byte)}
    (hl : b.length < required.length) (hp : part.length < 8)
    (hr : ∀ (k : Nat) x h, required[k]? = some (some h) → b[k]? = some x → x = h)
    (h : spellsFrom p cap pos ((b.flatMap fun x => lsbFirst x 8) ++ part))
    (h1 : pairMatches p cap (pos + 8 * b.length + part.length) 660 1630 = false)
    (h0 : pairMatches p cap (pos + 8 * b.length + part.length) 660 530 = false) :
    readBytes p cap required pos = .rejected .symbol (pos + 8 * b.length + part.length) := by
  induction b generalizing pos required with
  | nil =>
    cases required with
    | nil => simp at hl
    | cons q more =>
      have h' : spellsFrom p cap pos part := by simpa using h
      simp only [List.length_nil, Nat.mul_zero, Nat.add_zero] at h1 h0 ⊢
      simp [readBytes, readBits_rejected p cap hp h' h1 h0]
  | cons z rest ih =>
    cases required with
    | nil => simp at hl
    | cons q more =>
      simp only [List.flatMap_cons, List.append_assoc, spellsFrom_append, length_lsbFirst] at h
      have hq : q.all (fun y => z == y) = true := by
        cases q with
        | none => rfl
        | some y => simpa using hr 0 z y rfl rfl
      have e : pos + 8 * (z :: rest).length = pos + 8 + 8 * rest.length := by simp; omega
      rw [e] at h1 h0 ⊢
      have := ih (required := more) (by simpa using hl) (fun k y z hk hy => hr (k + 1) y z hk hy)
        ((spellsFrom_append p cap).mpr h.2) h1 h0
      rw [readBytes_step p cap q more h.1, if_pos hq, this]
      simp

/-! ### A reject always has a reason (spec/60_exceptions.md R236, R237) -/

/-- A scan that, if it is rejected, gives a reason. -/
def HasReason {α : Type} (x : Scan α) : Prop := ∀ r q, x = .rejected r q → r ≠ .none

theorem hasReason_found {α : Type} (v : α) (pos : Nat) : HasReason (.found v pos : Scan α) := by
  intro r q h
  cases h

theorem hasReason_rejected {α : Type} {r : Reason} (pos : Nat) (h : r ≠ .none) :
    HasReason (.rejected r pos : Scan α) := by
  intro r' q h'
  cases h'
  exact h

theorem hasReason_andThen {α β : Type} {x : Scan α} {k : α → Nat → Scan β} (hx : HasReason x)
    (hk : ∀ v pos, HasReason (k v pos)) : HasReason (andThen x k) := by
  cases x with
  | found v pos => exact hk v pos
  | rejected r pos => exact hasReason_rejected pos (hx r pos rfl)

theorem hasReason_readHeader (pos : Nat) : HasReason (readHeader p cap pos) := by
  unfold readHeader
  split
  · exact hasReason_found _ _
  · exact hasReason_rejected _ (by decide)

theorem hasReason_readBit (pos : Nat) : HasReason (readBit p cap pos) := by
  unfold readBit
  split
  · exact hasReason_found _ _
  · split
    · exact hasReason_found _ _
    · exact hasReason_rejected _ (by decide)

theorem hasReason_readBits (n pos : Nat) : HasReason (readBits p cap n pos) := by
  induction n generalizing pos with
  | zero => exact hasReason_found _ _
  | succ n ih =>
    exact hasReason_andThen (hasReason_readBit p cap pos) fun b q =>
      hasReason_andThen (ih q) fun rest q => hasReason_found _ _

theorem hasReason_readField (n : Nat) (order : AccumOrder) (pos : Nat) :
    HasReason (readField p cap n order pos) :=
  hasReason_andThen (hasReason_readBits p cap n pos) fun _ _ => hasReason_found _ _

theorem hasReason_readPad (n pos : Nat) : HasReason (readPad p cap n pos) := by
  induction n generalizing pos with
  | zero => exact hasReason_found _ _
  | succ n ih =>
    refine hasReason_andThen (hasReason_readBit p cap pos) fun b q => ?_
    cases b with
    | true => exact hasReason_rejected _ (by decide)
    | false => exact ih q

theorem hasReason_readBytes (required : List (Option Byte)) (pos : Nat) :
    HasReason (readBytes p cap required pos) := by
  induction required generalizing pos with
  | nil => exact hasReason_found _ _
  | cons h more ih =>
    refine hasReason_andThen (hasReason_readBits p cap 8 pos) fun s q => ?_
    dsimp only
    split
    · exact hasReason_andThen (ih q) fun _ _ => hasReason_found _ _
    · exact hasReason_rejected _ (by decide)

theorem hasReason_rxA : HasReason (rxA p cap) := by
  unfold rxA
  refine hasReason_andThen (hasReason_readHeader p cap 0) fun _ _ => ?_
  refine hasReason_andThen (hasReason_readField p cap _ _ _) fun _ _ => ?_
  refine hasReason_andThen (hasReason_readBit p cap _) fun _ _ => ?_
  refine hasReason_andThen (hasReason_readField p cap _ _ _) fun _ _ => ?_
  refine hasReason_andThen (hasReason_readBit p cap _) fun _ _ => ?_
  refine hasReason_andThen (hasReason_readBit p cap _) fun _ _ => ?_
  refine hasReason_andThen (hasReason_readField p cap _ _ _) fun _ _ => ?_
  refine hasReason_andThen (hasReason_readPad p cap _ _) fun _ _ => ?_
  refine hasReason_andThen (hasReason_readBit p cap _) fun _ _ => ?_
  refine hasReason_andThen (hasReason_readBit p cap _) fun _ _ => ?_
  refine hasReason_andThen (hasReason_readBit p cap _) fun _ _ => ?_
  refine hasReason_andThen (hasReason_readBit p cap _) fun _ _ => ?_
  refine hasReason_andThen (hasReason_readField p cap _ _ _) fun _ _ => ?_
  split
  · exact hasReason_found _ _
  · exact hasReason_rejected _ (by decide)

theorem hasReason_rxB : HasReason (rxB p cap) :=
  hasReason_andThen (hasReason_readHeader p cap 0) fun _ _ => hasReason_readBytes p cap _ _

/-- The bytes read are as many as required, and equal to the required ones. -/
theorem readBytes_required {required : List (Option Byte)} {pos q : Nat} {b : List Byte}
    (h : readBytes p cap required pos = .found b q) :
    b.length = required.length ∧ ∀ (k : Nat) x, required[k]? = some (some x) → b[k]? = some x := by
  induction required generalizing pos b q with
  | nil =>
    cases h
    simp
  | cons r more ih =>
    simp only [readBytes] at h
    cases e : readBits p cap 8 pos with
    | rejected => simp [e] at h
    | found s q' =>
      simp only [e, andThen_found] at h
      split at h
      · next hr =>
        cases e2 : readBytes p cap more q' with
        | rejected => simp [e2] at h
        | found rest q'' =>
          simp only [e2, andThen_found, Scan.found.injEq] at h
          obtain ⟨rfl, rfl⟩ := h
          obtain ⟨i1, i2⟩ := ih e2
          refine ⟨by simp [i1], fun k x hk => ?_⟩
          cases k with
          | zero => simp_all
          | succ k => exact i2 k x (by simpa using hk)
      · cases h

/-- A Variant B frame that is recognized has 16 bytes, the first five HDR_B (spec/42_frame_decoder.md R161). -/
theorem rxB_header {b : List Byte} {pos : Nat} (h : rxB p cap = .found b pos) :
    ∃ rest, b = [0x11, 0xDA, 0x17, 0x18, 0x00] ++ rest ∧ rest.length = 11 := by
  simp only [rxB] at h
  cases e : readHeader p cap 0 with
  | rejected => simp [e] at h
  | found u q =>
    simp only [e, andThen_found] at h
    obtain ⟨hl, hr⟩ := readBytes_required p cap h
    match b, hl with
    | b0 :: b1 :: b2 :: b3 :: b4 :: rest, hl =>
      have h0 := hr 0 0x11 rfl
      have h1 := hr 1 0xDA rfl
      have h2 := hr 2 0x17 rfl
      have h3 := hr 3 0x18 rfl
      have h4 := hr 4 0x00 rfl
      simp only [List.getElem?_cons_zero, List.getElem?_cons_succ, Option.some.injEq] at h0 h1 h2 h3 h4
      subst h0 h1 h2 h3 h4
      exact ⟨rest, rfl, by simpa [requiredBytes, hdrB] using hl⟩

/-- A capture spells a header and symbols where each pair in turn does. -/
theorem spells_of_all {bits : List Bool} (h0 : pairMatches p cap 0 6050 7450 = true)
    (h : ((List.range bits.length).all fun i =>
      if bits.getD i false then pairMatches p cap (1 + i) 660 1630
      else !pairMatches p cap (1 + i) 660 1630 && pairMatches p cap (1 + i) 660 530) = true) :
    spells p cap bits := by
  refine ⟨h0, fun i b hb => ?_⟩
  have hi : i < bits.length := by
    by_contra hn
    simp [List.getElem?_eq_none (Nat.le_of_not_lt hn)] at hb
  have hc := List.all_eq_true.mp h i (List.mem_range.mpr hi)
  rw [List.getD, hb, Option.getD_some] at hc
  cases b with
  | true => exact hc
  | false => simpa [isSymbol] using hc

end Sys2Proof.Machine
end

