-- ==== Sys2Proof/Laws/Mapper.lean ====
section
/-! SUPPORT. The exact arithmetic of the mapper: which patterns are NaN, what round gives, and which codes the
checksum gives (spec/00_scope.md R15, spec/44_checksum.md R200). -/

namespace Sys2Proof.Machine

theorem binary32_nan (t : Word) : binary32 t = .nan ↔ nanBits t := by
  have e : (t.extractLsb' 23 8).toNat = 255 ↔ t.extractLsb' 23 8 = 0xFF := by
    rw [← BitVec.toNat_inj]; rfl
  have f : (t.extractLsb' 0 23).toNat = 0 ↔ t.extractLsb' 0 23 = 0 := by
    rw [← BitVec.toNat_inj]; rfl
  unfold binary32 nanBits
  simp only [e, f]
  split
  · next h =>
    split
    · next h' => simp [h']
    · next h' => simpa [h] using h'
  · next h => split <;> simp only [reduceCtorEq, false_iff] <;> exact fun hn => h hn.1

theorem isNaN_iff (t : Word) : isNaN t = true ↔ nanBits t := by
  simp [isNaN, binary32_nan]

/-- The rounding of a non-negative count: the nearest whole degree, ties upwards. -/
theorem roundUnits_spec {x : Int} (hx : 0 ≤ x) :
    (2 * roundUnits x - 1) * 2 ^ 149 ≤ 2 * x ∧ 2 * x < (2 * roundUnits x + 1) * 2 ^ 149 := by
  simp only [roundUnits, hx, if_true, oneDegree]
  norm_num
  omega

theorem roundUnits_mono {x y : Int} (hx : 0 ≤ x) (hxy : x ≤ y) : roundUnits x ≤ roundUnits y := by
  have h1 := roundUnits_spec hx
  have h2 := roundUnits_spec (le_trans hx hxy)
  norm_num at h1 h2
  omega

theorem toNat_computeChecksum (t m : Nat) : (computeChecksum t m).toNat = (t + m + 2) % 16 := by
  simp only [computeChecksum, BitVec.toNat_ofNat]
  omega

end Sys2Proof.Machine
end

