-- ==== Sys2Proof/Laws/Claims.lean ====
section
/-! SUPPORT. The shared operations in the words the claims use, and the commands whose effect depends on
CTRL.VARIANT or on the climate state, said once. -/

namespace Sys2Proof.Machine

variable {s : State}

theorem raise_eq (c : ErrCode) (s : State) : raise c s = withError c s := rfl

theorem complete_eq (s : State) : complete s = withDone s := rfl

theorem rejectFrame_eq (r : Reason) (s : State) : rejectFrame r s = withReject r s := rfl

theorem acceptFrame_eq (r : ProtocolFields) (s : State) :
    acceptFrame r s = withAccept r (decodeRecord r) s := rfl

theorem exec_rx_a (h : s.variant = .a) : exec .rx s = .next (receiveA s) := by
  simp only [exec, execRx, h]

theorem exec_rx_b (h : s.variant = .b) : exec .rx s = .next (receiveB s) := by
  simp only [exec, execRx, h]

theorem receiveA_found {r : ProtocolFields} {pos : Nat} (h : rxA s.params s.rxcap = .found r pos) :
    receiveA s = withAccept r (decodeRecord r) s := by
  simp only [receiveA, h, acceptFrame_eq]

theorem receiveA_rejected {r : Reason} {pos : Nat} (h : rxA s.params s.rxcap = .rejected r pos) :
    receiveA s = withReject r s := by
  simp only [receiveA, h, rejectFrame_eq]

theorem receiveB_found {b : List Byte} {pos : Nat} (h : rxB s.params s.rxcap = .found b pos) :
    receiveB s = withAccept .zero (decodeRecord .zero) (setRawBytes b s) := by
  simp only [receiveB, h, acceptFrame_eq]

theorem receiveB_rejected {r : Reason} {pos : Nat} (h : rxB s.params s.rxcap = .rejected r pos) :
    receiveB s = withReject r s := by
  simp only [receiveB, h, rejectFrame_eq]

/-- A capture that spells the Variant A layout is read to its constant (spec/42_frame_decoder.md R153, R155). -/
theorem rxA_spelled {p : Params} {cap : List Pulse} {mode fan temp const : List Bool}
    {power swing sleep turbo light tree blow : Bool}
    (h3 : mode.length = 3) (h2 : fan.length = 2) (h4 : temp.length = 4) (h11 : const.length = 11)
    (hs : spells p cap
      (mode ++ [power] ++ fan ++ [swing] ++ [sleep] ++ temp ++ zeros 8 ++ [turbo, light, tree, blow] ++ const)) :
    rxA p cap =
      if assemble p.constOrder const = constARx then
        .found
          { modeCode := BitVec.ofNat 3 (assemble p.fieldOrder mode)
            fanCode := BitVec.ofNat 2 (assemble p.fieldOrder fan)
            tempCode := BitVec.ofNat 5 (assemble p.fieldOrder temp)
            csum := 0
            blade := 0
            flags := packFlags power swing sleep turbo light tree blow }
          36
      else .rejected .const 36 := by
  obtain ⟨hh, hs⟩ := hs
  simp only [spellsFrom_append, spellsFrom_cons, List.length_append, List.length_cons, List.length_nil, h3, h2, h4,
    length_zeros, spellsFrom_nil, and_true] at hs
  obtain ⟨⟨⟨⟨⟨⟨⟨⟨s1, s2⟩, s3⟩, s4⟩, s5⟩, s6⟩, s7⟩, s8, s9, s10, s11⟩, s12⟩ := hs
  simp only [rxA, readHeader_found p cap hh, andThen_found, readField_found p cap _ h3 s1,
    readBit_found p cap s2, readField_found p cap _ h2 s3, readBit_found p cap s4, readBit_found p cap s5,
    readField_found p cap _ h4 s6, readPad_found p cap s7, readBit_found p cap s8, readBit_found p cap s9,
    readBit_found p cap s10, readBit_found p cap s11, readField_found p cap _ h11 s12]

/-- Exactly the NaN encodings have no temperature code. -/
theorem encTemp_none (t : Word) : encTemp t = none ↔ nanBits t := by
  rw [← binary32_nan]
  unfold encTemp
  cases binary32 t with
  | nan => simp [clampUnits]
  | inf b => cases b <;> simp [clampUnits]
  | finite u => simp [clampUnits]

theorem encTemp_ready (h : climateReady s) : ∃ c, encTemp s.target = some c := by
  have hn := h.2.2
  rw [← encTemp_none] at hn
  exact Option.ne_none_iff_exists'.mp hn

/-- TX once its checks pass. -/
theorem exec_tx_ready {r : ProtocolFields} (h : climateReady s)
    (hr : encodeRecord s.climate s.target = some r) : exec .tx s = .next (withDone (transmitFrame r s)) := by
  simp only [exec, execTx, withClimate_ready h.1 h.2.1 hr, complete_eq]

theorem transmitFrame_a (r : ProtocolFields) (h : s.variant = .a) : transmitFrame r s = txA r s := by
  simp only [transmitFrame, h]

theorem transmitFrame_b (r : ProtocolFields) (h : s.variant = .b) : transmitFrame r s = txB r s := by
  simp only [transmitFrame, h]

/-- The flags of the record TX and MAPENC build (spec/43_semantic_mapper.md R190). -/
theorem flags_encodeRecord {r : ProtocolFields} (h : encodeRecord s.climate s.target = some r) :
    powerFlag r = poweredOn s ∧ swingFlag r = wantsVertical s := by
  have hb : ∀ p w : Bool, (packFlags p w false false false false false).getLsbD 0 = p ∧
      (packFlags p w false false false false false).getLsbD 1 = w := by decide
  obtain ⟨c, -, rfl⟩ := Option.map_eq_some_iff.mp h
  refine ⟨(hb _ _).1.trans ?_, (hb _ _).2.trans ?_⟩
  · rw [Bool.eq_iff_iff]
    simp [powerBit, poweredOn, modeOff]
  · rw [Bool.eq_iff_iff]
    simp [encSwing, wantsVertical, swingVertical]

/-- The decode direction of the mapper makes publishable states only (spec/43_semantic_mapper.md R185-R191). -/
theorem publishedOk_decodeRecord (r : ProtocolFields) : publishedOk (decodeRecord r) := by
  have hm : ∀ m : BitVec 3, decMode m ∈ [modeOff, modeHeatCool, modeCool, modeDry, modeFanOnly, modeHeat] := by
    decide
  have hf : ∀ f : BitVec 2, decFan f ∈ [fanAuto, fanLow, fanMedium, fanHigh] := by decide
  have hw : ∀ b, decSwing b ∈ [swingOff, swingVertical] := by decide
  refine ⟨?_, hf _, hw _, r.tempCode.toNat + 16, by omega, by omega, rfl⟩
  simp only [decodeRecord]
  split
  · exact hm _
  · decide

end Sys2Proof.Machine
end

