-- ==== Sys2Proof/Laws/Bus.lean ====
section
/-! SUPPORT. The register window and the step, said once: where an access lands, that every command word has a
next state, and what a push does to the capture buffer. -/

namespace Sys2Proof.Machine

theorem regAt_regOffset (r : Reg) : regAt (regOffset r) = r := by cases r <;> rfl

/-- A 32-bit access to a register is admitted at its offset (spec/20_memory.md R60, R62). -/
theorem admit_reg (base : Nat) (r : Reg) : admitAccess base (base + regOffset r) .bits32 = .ok (regOffset r) := by
  cases r <;> simp [admitAccess, regOffset]

/-- All `admitAccess` can answer with an offset. -/
theorem admit_ok_iff {base addr off : Nat} {width : AccessWidth} :
    admitAccess base addr width = .ok off ↔
      base ≤ addr ∧ addr < base + 64 ∧ width = .bits32 ∧ (addr - base) % 4 = 0 ∧ off = addr - base := by
  unfold admitAccess
  by_cases h : base ≤ addr ∧ addr < base + 64
  · by_cases h' : width = .bits32 ∧ (addr - base) % 4 = 0
    · rw [if_pos h, if_pos h', Except.ok.injEq]
      exact ⟨fun e => ⟨h.1, h.2, h'.1, h'.2, e.symm⟩, fun e => e.2.2.2.2.symm⟩
    · rw [if_pos h, if_neg h']
      exact ⟨(fun e => nomatch e), fun e => absurd ⟨e.2.2.1, e.2.2.2.1⟩ h'⟩
  · rw [if_neg h]
    exact ⟨(fun e => nomatch e), fun e => absurd ⟨e.1, e.2.1⟩ h⟩

/-- Every command has a next state (spec/60_exceptions.md R249). -/
theorem exec_next (i : Instr) (s : State) : ∃ t, exec i s = .next t := by
  cases i <;> simp only [exec, execNop, execRev, execEmitb, execEmitn, execEmitr, execMapenc, execMapdec, execCsum,
    execCsumv, execTx, execRxclr, Host.Outcome.next.injEq, exists_eq']
  · unfold execBlnext
    split <;> exact ⟨_, rfl⟩
  · unfold execRx
    split <;> exact ⟨_, rfl⟩

/-- Every command word has a next state. -/
theorem runCommand_next (w : Word) (s : State) : ∃ t, runCommand w s = .next t := by
  unfold runCommand
  split
  · exact exec_next _ s
  · exact ⟨_, rfl⟩

/-- Every write to a register has a next state. -/
theorem writeReg_next (r : Reg) (v : Word) (s : State) : ∃ t, writeReg r v s = .next t := by
  cases r
  case cmd => exact runCommand_next v s
  all_goals exact ⟨_, rfl⟩

theorem pushCapture_room {p : Pulse} {s : State} (h : s.rxcap.length < 256) :
    pushCapture p s = { s with rxcap := s.rxcap ++ [p] } := by
  exact if_pos h

theorem pushCapture_full {p : Pulse} {s : State} (h : 256 ≤ s.rxcap.length) :
    pushCapture p s = { s with status := statusOverflowed s.status } := by
  exact if_neg (Nat.not_lt.mpr h)

end Sys2Proof.Machine
end

