-- ==== Sys2Proof/Laws/Decode.lean ====
section
/-! SUPPORT. The fields of a command word, what the opcode map can answer, and how a word's checks end
(spec/30_encoding.md R80-R84). -/

namespace Sys2Proof

theorem rsvField_commandWord (op : BitVec 8) (len : Nat) : rsvField (commandWord op len) = 0 := by
  apply BitVec.eq_of_getLsbD_eq
  intro i hi
  simp only [rsvField, commandWord, BitVec.getLsbD_append, BitVec.getLsbD_extractLsb', BitVec.getLsbD_setWidth]
  simp [show ¬ (14 + i < 8) by omega, BitVec.getLsbD_of_ge (BitVec.ofNat 6 len) (14 + i - 8) (by omega)]

theorem opField_commandWord (op : BitVec 8) (len : Nat) : opField (commandWord op len) = op := by
  apply BitVec.eq_of_getLsbD_eq
  intro i hi
  simp only [opField, commandWord, BitVec.getLsbD_append, BitVec.getLsbD_extractLsb', BitVec.getLsbD_setWidth]
  simp [hi]
  omega

theorem lenField_commandWord (op : BitVec 8) (len : Nat) :
    lenField (commandWord op len) = BitVec.ofNat 6 len := by
  apply BitVec.eq_of_getLsbD_eq
  intro i hi
  simp only [lenField, commandWord, BitVec.getLsbD_append, BitVec.getLsbD_extractLsb', BitVec.getLsbD_setWidth]
  simp [hi]
  omega

/-- A word with RSV = 0 is made of its OP and LEN. -/
theorem commandWord_fields (w : Word) (h : rsvField w = 0) :
    commandWord (opField w) (lenField w).toNat = w := by
  apply BitVec.eq_of_getLsbD_eq
  intro i hi
  simp only [commandWord, BitVec.ofNat_toNat, BitVec.setWidth_eq, BitVec.getLsbD_append, BitVec.getLsbD_setWidth,
    opField, lenField, BitVec.getLsbD_extractLsb']
  by_cases h8 : i < 8
  · simp [h8, hi]
  · have e : 8 + (i - 8) = i := by omega
    by_cases h14 : i < 14
    · simp [h8, hi, e, show i - 8 < 6 by omega]
    · have hz := congrArg (fun x => x.getLsbD (i - 14)) h
      simp only [rsvField, BitVec.getLsbD_extractLsb', show i - 14 < 18 by omega, decide_true, Bool.true_and,
        show 14 + (i - 14) = i by omega] at hz
      simp [h8, show ¬ (i - 8 < 6) by omega, hz]

/-- The opcode map answers a command only with that command's opcode and LEN. -/
theorem decodeOp_ok {op len : Nat} {i : Instr} (h : decodeOp op len = .ok i) :
    op = i.opcode.toNat ∧ len = i.lenOperand := by
  unfold decodeOp at h
  split at h <;> (try unfold withoutLen at h; split at h) <;> cases h <;>
    exact ⟨rfl, by first | rfl | assumption⟩

/-- Every command is the opcode map's answer to its own opcode and LEN. -/
theorem decodeOp_opcode (i : Instr) : decodeOp i.opcode.toNat i.lenOperand = .ok i := by
  cases i <;> rfl

/-- All `decode` can answer: the command whose OP and LEN the word has, with RSV = 0. -/
theorem decode_ok {w : Word} {i : Instr} (h : decode w = .ok i) :
    rsvField w = 0 ∧ (opField w) = i.opcode ∧ (lenField w).toNat = i.lenOperand := by
  unfold decode at h
  split at h
  · next hr =>
    obtain ⟨h1, h2⟩ := decodeOp_ok h
    exact ⟨hr, BitVec.eq_of_toNat_eq h1, h2⟩
  · cases h

namespace Machine

/-- The checks of a row whose LEN must be 0 (spec/46_control.md R220). -/
theorem runsPlain_of_row {op : BitVec 8} {i : Instr}
    (h : ∀ len, decodeOp op.toNat len = withoutLen len i) : runsPlain op i := by
  intro w s hw
  by_cases hr : rsvField w = 0
  · by_cases hl : lenField w = 0
    · simp [runCommand, decode, hw, hr, hl, h, withoutLen]
    · have hl' : (lenField w).toNat ≠ 0 := fun e => hl (BitVec.eq_of_toNat_eq (by simpa using e))
      simp only [runCommand, decode, hw, hr, if_true, h, withoutLen, hl', if_false, hl, and_false]
      rfl
  · simp only [runCommand, decode, hr, if_false, false_and]
    rfl

/-- The checks of a row whose LEN is an operand. -/
theorem runsWithLen_of_row {op : BitVec 8} {i : Nat → Instr}
    (h : ∀ len, decodeOp op.toNat len = .ok (i len)) : runsWithLen op i := by
  intro w s hw
  by_cases hr : rsvField w = 0
  · simp [runCommand, decode, hw, hr, h]
  · simp only [runCommand, decode, hr, if_false]
    rfl

end Machine

end Sys2Proof
end

