-- ==== Sys2Proof/Laws/Loopback.lean ====
section
/-! SUPPORT. The capture of a transmitted frame spells the frame's symbols, under any conformant MATCH
(spec/70_reset_and_hazards.md section 3). -/

namespace Sys2Proof.Machine

theorem captured_symbols_append (bits : List Bool) (rest : List Item) :
    captured (symbols bits ++ rest) =
      (bits.map fun b => ({ mark := 660, space := if b then 1630 else 530 } : Pulse)) ++ captured rest := by
  induction bits with
  | nil => rfl
  | cons b more ih =>
    have h : symbols (b :: more) ++ rest =
        .mark 660 :: .space (if b then 1630 else 530) :: (symbols more ++ rest) := by
      simp [symbols]
    rw [h, captured, ih]
    cases b <;> rfl

/-- What a conformant MATCH accepts and refuses (spec/00_scope.md R8). -/
theorem matchConformant_of_params {p : Params} (h : paramsConformant p = true) :
    matchConformant p.matchRule = true := by
  simp only [paramsConformant, Bool.and_eq_true] at h
  exact h.1.2

theorem spells_captured {p : Params} (hp : paramsConformant p = true) (bits : List Bool) :
    spells p (captured (framed bits)) bits := by
  have hm := matchConformant_of_params hp
  simp only [matchConformant, Bool.and_eq_true, List.all_eq_true, matchConstants, List.mem_cons, List.not_mem_nil,
    or_false, forall_eq_or_imp, forall_eq, hdrMark, hdrSpace, bitMark, oneSpace, zeroSpace, Bool.not_eq_true'] at hm
  obtain ⟨⟨⟨m1, m2, m3, m4, m5⟩, d1⟩, d2⟩ := hm
  have hc : captured (framed bits) = { mark := 6050, space := 7450 } ::
      ((bits.map fun b => ({ mark := 660, space := if b then 1630 else 530 } : Pulse)) ++
        captured [.mark 530, .space 7450, .mark 530]) := by
    rw [← captured_symbols_append]
    simp [framed, captured, itemDuration]
  refine ⟨by simp [pairMatches, hc, m1, m2], fun i b hb => ?_⟩
  have hi : i < bits.length := by
    by_contra hn
    simp [List.getElem?_eq_none (Nat.le_of_not_lt hn)] at hb
  have hg : (captured (framed bits))[1 + i]? = some { mark := 660, space := if b then 1630 else 530 } := by
    rw [hc, Nat.add_comm, List.getElem?_cons_succ, List.getElem?_append_left (by simpa using hi), List.getElem?_map,
      hb]
    rfl
  cases b <;> simp_all [isSymbol, pairMatches]

/-- The first 35 symbols of a transmitted Variant A frame, in the groups the decoder reads
(spec/30_encoding.md R88, R92). -/
theorem layoutA_received (m : BitVec 3) (p : Bool) (f : BitVec 2) (w : Bool) (c : BitVec 5) (k e : BitVec 4) :
    ∃ tail, layoutA m p f w c k e =
      lsbFirst m 3 ++ [p] ++ lsbFirst f 2 ++ [w] ++ [false] ++ lsbFirst c 4 ++ zeros 8 ++
        [false, true, true, false] ++
        [false, true, false, false, true, false, true, false, false, false, false] ++ tail := by
  refine ⟨lsbFirst k 4 ++ zeros 4 ++ [false, true] ++ zeros 18 ++ lsbFirst e 4, ?_⟩
  simp [layoutA]

/-- The record a command builds once its checks pass. -/
theorem encodeRecord_ready {s : State} (h : climateReady s) :
    ∃ r, encodeRecord s.climate s.target = some r ∧ encTemp s.target = some r.tempCode ∧
      r.modeCode = encMode s.climate.mode ∧ r.fanCode = encFan s.climate.fan := by
  obtain ⟨c, hc⟩ := encTemp_ready h
  exact ⟨_, by rw [encodeRecord, hc]; rfl, hc, rfl, rfl⟩

end Sys2Proof.Machine
end

