-- ==== Sys2Proof/Laws/PerInstr.lean ====
section
/-! SUPPORT. Statements for all commands, made for each constructor of Instr. -/

namespace Sys2Proof.Laws.EncodeFields

/-- The word of a well-formed command has RSV = 0, the command's OP and its LEN (spec/30_encoding.md R80). -/
def Statement (i : Instr) : Prop :=
  i.wellFormed = true →
    rsvField (encode i) = 0 ∧ opField (encode i) = i.opcode ∧ (lenField (encode i)).toNat = i.lenOperand

theorem of_lenFits {i : Instr} (h : i.wellFormed = true → i.lenOperand < 64) : Statement i := by
  intro hi
  refine ⟨rsvField_commandWord _ _, opField_commandWord _ _, ?_⟩
  rw [encode, lenField_commandWord, BitVec.toNat_ofNat, Nat.mod_eq_of_lt (h hi)]

theorem nop : Statement .nop := of_lenFits fun _ => by decide
theorem rev (len : Nat) : Statement (.rev len) := of_lenFits fun h => of_decide_eq_true h
theorem emitb : Statement .emitb := of_lenFits fun _ => by decide
theorem emitn (len : Nat) : Statement (.emitn len) := of_lenFits fun h => of_decide_eq_true h
theorem emitr (len : Nat) : Statement (.emitr len) := of_lenFits fun h => of_decide_eq_true h
theorem mapenc : Statement .mapenc := of_lenFits fun _ => by decide
theorem mapdec : Statement .mapdec := of_lenFits fun _ => by decide
theorem csum : Statement .csum := of_lenFits fun _ => by decide
theorem csumv : Statement .csumv := of_lenFits fun _ => by decide
theorem blnext : Statement .blnext := of_lenFits fun _ => by decide
theorem tx : Statement .tx := of_lenFits fun _ => by decide
theorem rx : Statement .rx := of_lenFits fun _ => by decide
theorem rxclr : Statement .rxclr := of_lenFits fun _ => by decide

end Sys2Proof.Laws.EncodeFields
end

