-- ==== Sys2Proof/Tests/Slice0.lean ====
section
/-! SUPPORT. The model's own tests. Expected values come from spec/95_test_vectors.md (the vector's name stands in
each comment) or from the encoding tables of spec/30_encoding.md, never from the model. The second part holds, for
every statement with hypotheses, a concrete case that meets them. -/

namespace Sys2Proof.Tests

-- One theorem after another: side by side they would need more threads than the check allows.
set_option Elab.async false

open Sys2Proof Sys2Proof.Machine

/-! ## Helpers -/

/-- What `f` reads of the next state, where there is one. -/
def after {α : Type} (o : Host.Outcome State Fault Refusal) (f : State → α) : Option α :=
  match o with
  | .next t => some (f t)
  | .fault _ => none
  | .refused _ => none

/-- One step that writes this word to CMD. -/
def run {α : Type} (w : Nat) (s : State) (f : State → α) : Option α := after (step (s.withFetchWord 32 w)) f

/-- One step that serves this access of the host. -/
def serve {α : Type} (i : Input) (s : State) (f : State → α) : Option α :=
  after (step { s with inputs := [i] }) f

/-- Reset, then CLIMATE, TARGET and CTRL written. -/
def ready (v : Variant) (m : BitVec 3) (f : BitVec 4) (sw : BitVec 2) (t : Word) : State :=
  { State.reset with
    variant := v
    climate := { mode := m, fan := f, swing := sw }
    target := t
    status := { Status.reset with cv := true, tv := true } }

/-- A wire string of `n` symbols, written as a binary literal, first symbol leftmost. -/
def wire (n v : Nat) : List Bool := (List.range n).map fun i => v.testBit (n - 1 - i)

/-- A capture `H + bits` of spec/95_test_vectors.md. -/
def capture (bits : List Bool) : List Pulse :=
  { mark := 6050, space := 7450 } :: bits.map fun b => { mark := 660, space := if b then 1630 else 530 }

/-- Reset with a variant and a capture. -/
def receiving (v : Variant) (cap : List Pulse) : State := { State.reset with variant := v, rxcap := cap }

/-- Reset with ARG written. -/
def withArg (v : Word) : State := { State.reset with arg := v }

/-- The symbols of the bytes, each least significant bit first. -/
def byteSymbols (b : List Byte) : List Bool := b.flatMap fun x => lsbFirst x 8

/-- The bytes of vector RXB-1. -/
def bytesB : List Byte :=
  [0x11, 0xDA, 0x17, 0x18, 0x00, 0x01, 0x02, 0x03, 0x04, 0x05, 0x06, 0x07, 0x08, 0x09, 0x0A, 0x0B]

/-- COOL, HIGH, OFF at 24.0: vectors TXA-1, TXB-1, ME-1, CV-1. -/
def cool (v : Variant) : State := ready v 2 5 0 0x41C00000

/-! ## Well-formedness and the command word -/

theorem test_wellFormed : (Instr.rev 63).wellFormed = true ∧ (Instr.rev 64).wellFormed = false ∧
    (Instr.emitn 63).wellFormed = true ∧ (Instr.emitn 64).wellFormed = false ∧
    (Instr.emitr 63).wellFormed = true ∧ (Instr.emitr 64).wellFormed = false := by decide

/-- RSV 0, LEN 11 = 001011, OP 00000001; and R83's other words of the Bit Codec. -/
theorem test_decode_bit_codec : decodeTableWord 32 0b000000000000000000_001011_00000001 = some (.rev 11) ∧
    decodeTableWord 32 0b000000000000000000_000000_00000010 = some .emitb ∧
    decodeTableWord 32 0b000000000000000000_100000_00000011 = some (.emitn 32) ∧
    decodeTableWord 32 0b000000000000000000_111111_00000100 = some (.emitr 63) := by decide

theorem test_decode_control : decodeTableWord 32 0b000000000000000000_000000_00000000 = some .nop ∧
    decodeTableWord 32 0b000000000000000000_000000_00100010 = some .rxclr := by decide

theorem test_decode_mapper : decodeTableWord 32 0b000000000000000000_000000_00010000 = some .mapenc ∧
    decodeTableWord 32 0b000000000000000000_000000_00010001 = some .mapdec := by decide

theorem test_decode_checksum : decodeTableWord 32 0b000000000000000000_000000_00010010 = some .csum ∧
    decodeTableWord 32 0b000000000000000000_000000_00010011 = some .csumv := by decide

theorem test_decode_blade : decodeTableWord 32 0b000000000000000000_000000_00010100 = some .blnext := by decide

theorem test_decode_frames : decodeTableWord 32 0b000000000000000000_000000_00100000 = some .tx ∧
    decodeTableWord 32 0b000000000000000000_000000_00100001 = some .rx := by decide

/-- ERR-1, ERR-2, ERR-3, ERR-4, ERR-5, ERR-7, ERR-14, ERR-15. -/
theorem test_decode_illegal : ∀ w ∈ [0x5, 0x100, 0x2120, 0x4000, 0x80000021, 0x6101, 0xFF, 0x15, 0x23, 0xF],
    decodeTableWord 32 w = none := by decide

/-! ## One step of each command -/

/-- ERR-13. -/
theorem test_nop : run 0x00 { State.reset with status := { Status.reset with err := .illegalCmd, errseen := true } }
    (readReg .status) = some 0x01000000 := by decide +kernel

/-- REV-9. -/
theorem test_rev_full_width : run 0x2001 (withArg 0x12345678) (readReg .result) = some 0x1E6A2C48 := by
  decide +kernel

/-- REV-4: the upper bits stay. -/
theorem test_rev_keeps_upper : run 0x0401 (withArg 0xFFFFFF01) (readReg .result) = some 0xFFFFFF08 := by
  decide +kernel

/-- EM-2. -/
theorem test_emitb : run 0x02 (withArg 2) State.txq = some [⟨38000, [.mark 660, .space 530]⟩] := by decide +kernel

/-- EM-5: `1000`. -/
theorem test_emitn : run 0x0403 (withArg 0xFFFFFFF8) State.txq =
    some [⟨38000, [.mark 660, .space 1630, .mark 660, .space 530, .mark 660, .space 530, .mark 660, .space 530]⟩] := by
  decide +kernel

/-- EM-6. -/
theorem test_emitn_zero : run 0x0003 (withArg 5) State.txq = some [⟨38000, []⟩] := by decide +kernel

/-- EM-7. -/
theorem test_emitr : run 0x0B04 (withArg 0x52) State.txq =
    some [⟨38000, symbols (wire 11 0b01001010000)⟩] := by decide +kernel

/-- ME-3. -/
theorem test_mapenc_tie : run 0x10 (ready .a 3 2 2 0x41B40000) (readReg .fields) = some 0x030D0704 := by
  decide +kernel

/-- ME-6, ME-4. -/
theorem test_mapenc_clamp : run 0x10 (ready .a 4 3 2 0xFF800000) (readReg .fields) = some 0x03050013 ∧
    run 0x10 (ready .a 6 9 1 0x41700000) (readReg .fields) = some 0x01020000 := by decide +kernel

/-- MD-5. -/
theorem test_mapdec : run 0x11 { State.reset with fields := fieldsOfWord 0xFFFFFFFF }
    (fun t => (readReg .fields t, readReg .climate t, readReg .target t, t.pubq)) =
    some (0x7FFF1F37, 0x251, 0x423C0000, [⟨1, 5, 2, 0x423C0000⟩]) := by decide +kernel

/-- CS-7, CS-6. -/
theorem test_csum : run 0x12 (withArg 0xFFFF040F) (readReg .result) = some 0x5 ∧
    run 0x12 (withArg 0xFFFF) (readReg .result) = some 0 := by decide +kernel

/-- CV-1, CV-3. -/
theorem test_csumv : run 0x13 { cool .a with arg := 11 } (readReg .result) = some 1 ∧
    run 0x13 { cool .a with arg := 0x1B } (readReg .result) = some 0 := by decide +kernel

/-- BL-9, BL-12. -/
theorem test_blnext : run 0x14 (withArg 0x19) (readReg .result) = some 0xB ∧
    run 0x14 (withArg 0xFFFFFFE2) (readReg .result) = some 0x3 := by decide +kernel

/-- BL-11. -/
theorem test_blnext_badOperand : run 0x14 (withArg 0x0A) (readReg .status) = some 0x01000002 := by decide +kernel

/-- TXA-3. -/
theorem test_tx_a : run 0x20 (ready .a 3 2 2 0x41B40000)
    (fun t => (readReg .fields t, readReg .blade t, t.txq)) =
    some (0x331D0704, 0x1, [⟨38000, framed (wire 67
      0b001_1_00_1_0_1110_00000000_0110_01001010000_1000_0000_01_000000000000000000_1011)⟩]) := by decide +kernel

/-- TXB-3. -/
theorem test_tx_b : run 0x20 (ready .b 3 3 2 0x41A00000)
    (fun t => (readReg .fields t, readReg .blade t, t.txq)) =
    some (0x030A0414, 0x0, [⟨38000, framed (wire 96
      0b1_00000000000000000000000000000000_0_000_10_000000000_00100_001_10100101_0000_0101)⟩]) := by decide +kernel

/-- RXA-11. -/
theorem test_rx_a : run 0x21 (receiving .a (capture (wire 35 0b100_0_11_10_0001_00000000_1111_00001010010)))
    (fun t => (readReg .fields t, readReg .climate t, readReg .target t, readReg .status t, t.pubq)) =
    some (0x7A000831, 0x250, 0x41C00000, 0x00030010, [⟨0, 5, 2, 0x41C00000⟩]) := by decide +kernel

/-- RXB-1. -/
theorem test_rx_b : run 0x21 (receiving .b (capture (byteSymbols bytesB)))
    (fun t => ([t.rawb0, t.rawb1, t.rawb2, t.rawb3, readReg .climate t], t.pubq)) =
    some ([0x1817DA11, 0x03020100, 0x07060504, 0x0B0A0908, 0x020], [⟨0, 2, 0, 0x41800000⟩]) := by decide +kernel

/-- CAP-4. -/
theorem test_rxclr : run 0x22 { receiving .a (List.replicate 256 ⟨660, 530⟩) with
      status := { Status.reset with rxovf := true, reason := .pad } }
    (fun t => (readReg .rxlen t, readReg .status t)) = some (0, 0x00000300) := by decide +kernel

/-! ## Errors, the register window and MATCH -/

/-- ERR-1, ERR-6, ERR-8, ERR-12. -/
theorem test_errors : run 0x05 State.reset (readReg .status) = some 0x01000001 ∧
    run 0x2101 State.reset (readReg .status) = some 0x01000002 ∧
    run 0x20 State.reset (readReg .status) = some 0x01000003 ∧
    run 0x13 { State.reset with target := 0x7FC00000, status := { Status.reset with tv := true } }
      (readReg .status) = some 0x01020003 := by decide +kernel

/-- ERR-10. -/
theorem test_badTemp : run 0x20 (ready .a 2 5 0 0x7FC00000) (fun t => (readReg .status t, t.blade, t.txq)) =
    some (0x01030004, .stop, []) := by decide +kernel

/-- MEM-1, MEM-3, MEM-4, MEM-5, MEM-7. -/
theorem test_window : serve (.read 0x2C .bits32) State.reset State.reads = some [0] ∧
    serve (.read 0x04 .bits32) State.reset State.reads = some [0] ∧
    serve (.write 0x10 .bits32 0xFFFFFFFF) State.reset (readReg .status) = some 0 ∧
    serve (.write 0x00 .bits32 0xFFFFFFFF) State.reset (readReg .ctrl) = some 1 ∧
    serve (.write 0x14 .bits32 0xFFFFFFFF) State.reset (fun t => (readReg .climate t, readReg .status t)) =
      some (0x3F7, 0x00010000) := by decide +kernel

/-- MEM-6. -/
theorem test_not_admitted : step { State.reset with inputs := [.read 0x10 .bits8] } = .fault .notAdmitted ∧
    step { State.reset with inputs := [.read 0x11 .bits32] } = .fault .notAdmitted :=
  ⟨rfl, rfl⟩

/-- CAP-3 (from CAP-2's state), CAP-5. -/
theorem test_push : serve (.write 0x24 .bits32 0x02120294) (receiving .a (List.replicate 256 ⟨660, 530⟩))
      (fun t => (readReg .rxlen t, readReg .status t)) = some (256, 0x00040000) ∧
    serve (.write 0x24 .bits32 0x065E0294) State.reset State.rxcap = some [⟨660, 1630⟩] := by decide +kernel

/-- The host notation's encodings, as programs P1, P2, P4 and P5 give them. -/
theorem test_asm : asmClimate defaultParams 2 5 0 = .write 0x14 .bits32 0x00000052 ∧
    asmTarget defaultParams 0x41C00000 = .write 0x18 .bits32 0x41C00000 ∧
    asmCmd defaultParams (.rev 11) = .write 0x04 .bits32 0x00000B01 ∧
    asmRd defaultParams .blade = .read 0x20 .bits32 ∧
    asmVariant defaultParams .b = .write 0x00 .bits32 1 ∧
    asmCapture defaultParams = .write 0x04 .bits32 0x00000022 ∧
    asmPush defaultParams 6050 7450 = .write 0x24 .bits32 0x1D1A17A2 ∧
    asmPushBits defaultParams [true, false] =
      [.write 0x24 .bits32 0x065E0294, .write 0x24 .bits32 0x02120294] ∧
    asmEmit defaultParams (.emitn 8) 0xA5 =
      [.write 0x08 .bits32 0x000000A5, .write 0x04 .bits32 0x00000803] := by decide +kernel

/-- The tolerance table of spec/95_test_vectors.md 2.4. -/
theorem test_tolerance : [397, 398, 662, 663].map (matchAccepts defaultMatch · 530) = [false, true, true, false] ∧
    [1222, 1223, 2037, 2038].map (matchAccepts defaultMatch · 1630) = [false, true, true, false] ∧
    [494, 495, 825, 826].map (matchAccepts defaultMatch · 660) = [false, true, true, false] := by decide

/-! ## Witnesses: for each statement with hypotheses, a case that meets them -/

/-- The default parameters but RXA_CONST_ORDER = MSB_FIRST, as in vector RXA-4. -/
def msbParams : Params := { defaultParams with constOrder := .msbFirst }

/-- A state with the host's accesses pending. -/
def pending (s : State) (xs : List Input) : State := { s with inputs := xs }

theorem witness_PlatformResetKeepsStreams :
    (pending { cool .b with pubq := [⟨0, 2, 0, 0x41800000⟩] } [.reset]).inputs = .reset :: [] := rfl

/-- A state after reset and two writes, about to run a TX. -/
theorem witness_EveryStepKeepsInvariant :
    ((cool .a).withFetchWord 32 0x20).Inv ∧ ∃ t, step ((cool .a).withFetchWord 32 0x20) = .next t :=
  ⟨⟨by decide, by decide, by decide, by decide, by decide, by decide, by decide, (fun _ h => nomatch h),
    (fun _ h => nomatch h), by decide +kernel⟩, _, rfl⟩

theorem witness_DecodeReadsBackEveryEncoding : (Instr.rev 0).wellFormed = true ∧
    (Instr.emitn 63).wellFormed = true ∧ Instr.tx.wellFormed = true := by decide

theorem witness_EveryDecodedWordIsItsEncoding : decode 0x00003F04 = .ok (.emitr 63) ∧ decode 0 = .ok .nop :=
  ⟨rfl, rfl⟩

/-- One word for each of the three clauses, at the ends of their ranges. -/
theorem witness_IllegalWordsRaiseIllegalCmd :
    (0x00004000 : Word).extractLsb' 14 18 ≠ 0 ∧ (0x80000021 : Word).extractLsb' 14 18 ≠ 0 ∧
      ¬ ((0x00000005 : Word).extractLsb' 0 8 ∈ ([0x00, 0x01, 0x02, 0x03, 0x04, 0x10, 0x11, 0x12, 0x13, 0x14,
        0x20, 0x21, 0x22] : List (BitVec 8))) ∧
      ¬ ((0x000000FF : Word).extractLsb' 0 8 ∈ ([0x00, 0x01, 0x02, 0x03, 0x04, 0x10, 0x11, 0x12, 0x13, 0x14,
        0x20, 0x21, 0x22] : List (BitVec 8))) ∧
      (0x00000100 : Word).extractLsb' 8 6 ≠ 0 ∧
      ¬ ((0x00000100 : Word).extractLsb' 0 8 ∈ ([0x01, 0x03, 0x04] : List (BitVec 8))) := by decide

/-- A word that decodes and one that does not, each about to be written to CMD. -/
theorem witness_StepRunsTheCommandWord :
    (decode 0x00000B01 = .ok (.rev 11) ∧
      (pending State.reset [.write 4 .bits32 0x00000B01]).inputs =
        .write (State.reset.params.base + 4) .bits32 0x00000B01 :: []) ∧
    ((∀ i, decode 0x00000005 ≠ .ok i) ∧
      (pending State.reset [.write 4 .bits32 0x00000005]).inputs =
        .write (State.reset.params.base + 4) .bits32 0x00000005 :: []) := by
  have e : decode 0x00000005 = .error .unassignedOp := rfl
  exact ⟨⟨rfl, rfl⟩, fun _ h => (nomatch e.symm.trans h), rfl⟩

theorem witness_StepWithoutInputIdles : State.reset.inputs = [] := rfl

/-- What the statements over all commands assume, exec i s = next t: a command that writes a register, one that
writes a stream, one that errs. -/
theorem witness_NoCommandWritesItsInputs : (∃ t, exec .csum (withArg 0x108) = .next t) ∧
    (∃ t, exec .tx (cool .a) = .next t) ∧ ∃ t, exec .tx State.reset = .next t :=
  ⟨⟨_, rfl⟩, ⟨_, rfl⟩, _, rfl⟩

theorem witness_EveryWordCompletesOrRaisesOneError : decode 0x00000021 = .ok .rx := rfl

theorem witness_OnlyResultCommandsWriteResult :
    ∃ t, exec .csum (withArg 0x108) = .next t ∧ t.result ≠ (withArg 0x108).result := ⟨_, rfl, by decide +kernel⟩

theorem witness_BladeStepsOnlyAtVariantATx : ∃ t, exec .tx (cool .a) = .next t ∧
    ((cool .a).variant = .a ∧ t.status.err = .none) := ⟨_, rfl, by decide +kernel⟩

theorem witness_StreamsGrowByTheirCommandsOnly :
    (∃ t, exec .tx (cool .b) = .next t ∧ t.status.err = .none ∧ t.txq ≠ (cool .b).txq) ∧
      ∃ t, exec .mapdec State.reset = .next t ∧ t.pubq ≠ State.reset.pubq :=
  ⟨⟨_, rfl, by decide +kernel⟩, _, rfl, by decide +kernel⟩

theorem witness_StatusFieldsHaveTheirWriters : ∃ t, exec .mapdec State.reset = .next t := ⟨_, rfl⟩

theorem witness_RegistersHaveTheirWriters : (∃ t, exec .csum (withArg 3) = .next t) ∧
    ∃ t, exec .rx State.reset = .next t ∧ t.status.acc = false := ⟨⟨_, rfl⟩, _, rfl, by decide +kernel⟩

theorem witness_EveryStepKeepsErrseenAndStreams :
    ∃ s t, step s = .next t ∧ s.status.errseen = true ∧ ∀ rest, s.inputs ≠ .reset :: rest :=
  ⟨{ State.reset with status := { Status.reset with errseen := true } }, _, rfl, rfl, fun _ h => nomatch h⟩

theorem witness_OnlyTxAndRxReadTheVariant : Instr.csumv ≠ .tx ∧ Instr.csumv ≠ .rx ∧
    ∃ t, exec .csumv (cool .a) = .next t := ⟨by decide, by decide, _, rfl⟩

/-- LEN on both sides of W = 32, the least and the greatest. -/
theorem witness_RevReversesTheLowBits : 0 ≤ 32 ∧ 32 ≤ 32 ∧ 32 < 33 ∧ opField 0x00002001 = 0x01 := by decide

theorem witness_EmitnSendsMostSignificantFirst : 0 ≤ 32 ∧ 32 ≤ 32 ∧ 32 < 33 ∧ opField 0x00002003 = 0x03 := by
  decide

theorem witness_EmitrSendsLeastSignificantFirst : 0 ≤ 32 ∧ 32 ≤ 32 ∧ 32 < 33 ∧ opField 0x00002004 = 0x04 := by
  decide

/-- The clauses of the format at the ends of their ranges: (exponent, fraction is 0) of the least and greatest
subnormal, the least and greatest normal, an infinity, and the least NaN. -/
theorem witness_EncTempClampsAndRounds_format :
    ([0x00000001, 0x807FFFFF, 0x00800000, 0xFF7FFFFF, 0xFF800000, 0x7F800001] : List Word).map
      (fun t => ((t.extractLsb' 23 8).toNat, decide ((t.extractLsb' 0 23).toNat = 0))) =
    [(0, false), (0, false), (1, true), (254, false), (255, true), (255, false)] := by decide

/-- 16.0 and 15.0, 32.0 and 47.0, 22.5, and the infinities. -/
theorem witness_EncTempClampsAndRounds : binary32 0x41800000 = .finite (16 * 2 ^ 149) ∧
    binary32 0x41700000 = .finite (15 * 2 ^ 149) ∧ binary32 0x42000000 = .finite (32 * 2 ^ 149) ∧
    binary32 0x423C0000 = .finite (47 * 2 ^ 149) ∧ binary32 0x41B40000 = .finite (45 * 2 ^ 148) ∧
    binary32 0xFF800000 = .inf true ∧ binary32 0x7F800000 = .inf false := by decide +kernel

theorem witness_MapperRoundTrips : binary32 0x41B40000 = .finite (45 * 2 ^ 148) ∧
    (16 * 2 ^ 149 : Int) ≤ 45 * 2 ^ 148 ∧ (45 * 2 ^ 148 : Int) ≤ 32 * 2 ^ 149 := by decide +kernel

/-- The cases of the commands that read CLIMATE and TARGET: ready, CLIMATE unwritten, TARGET unwritten, NaN. -/
theorem witness_climateErrors : climateReady (cool .a) ∧ State.reset.status.cv = false ∧
    ({ State.reset with status := { Status.reset with cv := true } } : State).status.tv = false ∧
    ((ready .a 2 5 0 0x7F800001).status.cv = true ∧ (ready .a 2 5 0 0x7F800001).status.tv = true ∧
      nanBits (ready .a 2 5 0 0x7F800001).target) := by
  unfold climateReady nanBits
  decide

/-- ARG = 8 names no position; ARG = 0xB names HIGH, under a BLADE_CODE that is injective. -/
theorem witness_BlnextEvaluatesTheTable : (∀ p, bladeCode (withArg 8).params p ≠ (withArg 8).arg.extractLsb' 0 4) ∧
    (∀ a b, bladeCode (withArg 0xB).params a = bladeCode (withArg 0xB).params b → a = b) ∧
    bladeCode (withArg 0xB).params .high = (withArg 0xB).arg.extractLsb' 0 4 := by
  refine ⟨fun p => ?_, fun a b => ?_, by decide⟩
  · cases p <;> decide
  · cases a <;> cases b <;> decide

/-- Without vertical intent and with it. -/
theorem witness_DefaultBladeCycles : (cool .a).params = defaultParams ∧ (cool .a).blade = .stop ∧
    (cool .a).variant = .a ∧ climateReady (cool .a) ∧ wantsVertical (cool .a) = false ∧
    wantsVertical (ready .a 2 5 2 0x41C00000) = true ∧ climateReady (ready .a 2 5 2 0x41C00000) := by
  unfold climateReady nanBits
  decide

theorem witness_TxSendsTheVariantAFrame : climateReady (cool .a) ∧ (cool .a).variant = .a := by
  unfold climateReady nanBits
  decide

theorem witness_TxSendsTheVariantBFrame : climateReady (cool .b) ∧ (cool .b).variant = .b := by
  unfold climateReady nanBits
  decide

/-- A TX that sends and one that errs. -/
theorem witness_TxDoesNotReadTheOtherRegisters : (∃ t, exec .tx (cool .a) = .next t ∧ t.status.err = .none) ∧
    ∃ t, exec .tx State.reset = .next t ∧ t.status.err = .uninit :=
  ⟨⟨_, rfl, by decide +kernel⟩, _, rfl, by decide +kernel⟩

theorem witness_FrameSizesAndAirtime : (∃ t, exec .tx (cool .a) = .next t ∧ t.status.err = .none) ∧
    ∃ t, exec .tx (cool .b) = .next t ∧ t.status.err = .none :=
  ⟨⟨_, rfl, by decide +kernel⟩, _, rfl, by decide +kernel⟩

/-- RXA-6 rejects, RXB-1 accepts. -/
theorem witness_RejectChangesStatusOnly : (∃ t, exec .rx State.reset = .next t ∧ t.status.acc = false) ∧
    ∃ t, exec .rx (receiving .b (capture (byteSymbols bytesB))) = .next t ∧ t.status.acc = true :=
  ⟨⟨_, rfl, by decide +kernel⟩, _, rfl, by decide +kernel⟩

/-- RXA-1. -/
theorem witness_RxRecognizesVariantA :
    assemble defaultParams.constOrder (wire 11 0b00001010010) = 0x250 ∧
      spells defaultParams (capture (wire 35 0b100_1_11_00_0001_00000000_0000_00001010010))
        (wire 3 0b100 ++ [true] ++ wire 2 0b11 ++ [false] ++ [false] ++ wire 4 0b0001 ++ zeros 8 ++
          [false, false, false, false] ++ wire 11 0b00001010010) :=
  ⟨by decide, spells_of_all _ _ (by decide +kernel) (by decide +kernel)⟩

/-- The header clause: RXA-6, RXA-7, and a header mark of 4537 us. -/
theorem witness_VariantARejectReasons_header : pairMatches defaultParams [] 0 6050 7450 = false ∧
    pairMatches defaultParams [⟨8050, 7450⟩] 0 6050 7450 = false ∧
    pairMatches defaultParams [⟨4537, 7450⟩] 0 6050 7450 = false := by decide

/-- The pad clause: a 1 as the first and as the eighth pad symbol. -/
theorem witness_VariantARejectReasons_pad :
    spells defaultParams (capture (wire 13 0b100_1_11_00_0001_1)) (wire 12 0b100_1_11_00_0001 ++ zeros 0 ++ [true]) ∧
      spells defaultParams (capture (wire 20 0b100_1_11_00_0001_00000001))
        (wire 12 0b100_1_11_00_0001 ++ zeros 7 ++ [true]) :=
  ⟨spells_of_all _ _ (by decide +kernel) (by decide +kernel), spells_of_all _ _ (by decide +kernel) (by decide +kernel)⟩

/-- The symbol clause: nothing after the header, (660, 1000) after it (RXA-10), and 34 symbols (RXA-14). -/
theorem witness_VariantARejectReasons_symbol :
    (spells defaultParams (capture []) [] ∧ pairMatches defaultParams (capture []) 1 660 1630 = false ∧
      pairMatches defaultParams (capture []) 1 660 530 = false) ∧
    (spells defaultParams [⟨6050, 7450⟩, ⟨660, 1000⟩] [] ∧
      pairMatches defaultParams [⟨6050, 7450⟩, ⟨660, 1000⟩] 1 660 1630 = false ∧
      pairMatches defaultParams [⟨6050, 7450⟩, ⟨660, 1000⟩] 1 660 530 = false) ∧
    (spells defaultParams (capture (wire 34 0b100_1_11_00_0001_00000000_0000_0000101001))
        (wire 34 0b100_1_11_00_0001_00000000_0000_0000101001) ∧
      (∀ k, 12 ≤ k → k < 20 → (wire 34 0b100_1_11_00_0001_00000000_0000_0000101001)[k]? ≠ some true) ∧
      pairMatches defaultParams (capture (wire 34 0b100_1_11_00_0001_00000000_0000_0000101001)) 35 660 1630 = false ∧
      pairMatches defaultParams (capture (wire 34 0b100_1_11_00_0001_00000000_0000_0000101001)) 35 660 530 = false) := by
  refine ⟨⟨spells_of_all _ _ (by decide +kernel) (by decide +kernel), by decide, by decide⟩,
    ⟨spells_of_all _ _ (by decide +kernel) (by decide +kernel), by decide, by decide⟩,
    spells_of_all _ _ (by decide +kernel) (by decide +kernel), ?_, by decide +kernel, by decide +kernel⟩
  intro k h1 h2
  have h : ∀ j < 8, (wire 34 0b100_1_11_00_0001_00000000_0000_0000101001)[12 + j]? ≠ some true := by decide +kernel
  simpa [show 12 + (k - 12) = k by omega] using h (k - 12) (by omega)

/-- The constant clause: RXA-2. -/
theorem witness_VariantARejectReasons_const :
    spells defaultParams (capture (wire 35 0b100_1_11_00_0001_00000000_0000_00000000000))
        (wire 12 0b100_1_11_00_0001 ++ zeros 8 ++ wire 4 0b0000 ++ wire 11 0) ∧
      assemble defaultParams.constOrder (wire 11 0) ≠ 0x250 :=
  ⟨spells_of_all _ _ (by decide +kernel) (by decide +kernel), by decide⟩

/-- RXB-1. -/
theorem witness_RxRecognizesVariantB : bytesB.length = 16 ∧ bytesB.take 5 = [0x11, 0xDA, 0x17, 0x18, 0x00] ∧
    spells defaultParams (capture (byteSymbols bytesB)) (bytesB.flatMap fun x => lsbFirst x 8) :=
  ⟨rfl, rfl, spells_of_all _ _ (by decide +kernel) (by decide +kernel)⟩

/-- The header byte clause at byte 0 (RXB-2) and at byte 4 (RXB-3). -/
theorem witness_VariantBRejectReasons_hdrByte :
    (spells defaultParams (capture (byteSymbols [0x12]))
        (((([0x11, 0xDA, 0x17, 0x18, 0x00] : List Byte).take 0) ++ [0x12]).flatMap fun y => lsbFirst y 8) ∧
      ([0x11, 0xDA, 0x17, 0x18, 0x00] : List Byte)[0]? ≠ some 0x12) ∧
    (spells defaultParams (capture (byteSymbols [0x11, 0xDA, 0x17, 0x18, 0x01]))
        (((([0x11, 0xDA, 0x17, 0x18, 0x00] : List Byte).take 4) ++ [0x01]).flatMap fun y => lsbFirst y 8) ∧
      ([0x11, 0xDA, 0x17, 0x18, 0x00] : List Byte)[4]? ≠ some 0x01) :=
  ⟨⟨spells_of_all _ _ (by decide +kernel) (by decide +kernel), by decide⟩,
    spells_of_all _ _ (by decide +kernel) (by decide +kernel), by decide⟩

/-- The symbol clause at the first symbol and at the last (RXB-5). -/
theorem witness_VariantBRejectReasons_symbol :
    (spells defaultParams (capture []) ((([] : List Byte).flatMap fun x => lsbFirst x 8) ++ []) ∧
      pairMatches defaultParams (capture []) 1 660 1630 = false ∧
      pairMatches defaultParams (capture []) 1 660 530 = false) ∧
    (spells defaultParams (capture (byteSymbols (bytesB.take 15) ++ lsbFirst (0x0B : Byte) 7))
        (((bytesB.take 15).flatMap fun x => lsbFirst x 8) ++ lsbFirst (0x0B : Byte) 7) ∧
      pairMatches defaultParams (capture (byteSymbols (bytesB.take 15) ++ lsbFirst (0x0B : Byte) 7)) 128 660 1630 =
        false ∧
      pairMatches defaultParams (capture (byteSymbols (bytesB.take 15) ++ lsbFirst (0x0B : Byte) 7)) 128 660 530 =
        false) :=
  ⟨⟨spells_of_all _ _ (by decide +kernel) (by decide +kernel), by decide, by decide⟩,
    spells_of_all _ _ (by decide +kernel) (by decide +kernel), by decide +kernel, by decide +kernel⟩

/-- A state that differs from `s` in all that an RX may not read. -/
def elsewhere (s : State) : State :=
  { cool .a with
    rxcap := s.rxcap, variant := s.variant, params := s.params, arg := 5, rawb0 := 7
    pubq := [⟨0, 2, 0, 0x41800000⟩], inputs := [.reset] }

/-- RXA-1 and RXB-1 recognize, an empty capture does not; each beside a state that holds other things. -/
theorem witness_RxRepeatsItsOutcome :
    (∀ s : State, (elsewhere s).rxcap = s.rxcap ∧ (elsewhere s).variant = s.variant ∧
      (elsewhere s).params = s.params) ∧
    (∃ t, exec .rx (receiving .a (capture (wire 35 0b100_1_11_00_0001_00000000_0000_00001010010))) = .next t ∧
      t.status.acc = true) ∧
    (∃ t, exec .rx (receiving .b (capture (byteSymbols bytesB))) = .next t ∧ t.status.acc = true) ∧
    ∃ t, exec .rx State.reset = .next t ∧ t.status.acc = false :=
  ⟨fun _ => ⟨rfl, rfl, rfl⟩, ⟨_, rfl, by decide +kernel⟩, ⟨_, rfl, by decide +kernel⟩, _, rfl, by decide +kernel⟩

/-- RXA-3. -/
theorem witness_OwnVariantAFrameIsRejectedByIndex : paramsConformant (cool .a).params = true ∧
    (cool .a).params.constOrder = .byIndex ∧ climateReady (cool .a) ∧
    ∃ t, exec .tx (cool .a) = .next t ∧ t.txq = (cool .a).txq ++
      [⟨38000, framed (wire 67 0b100_1_11_0_0_0001_00000000_0110_01001010000_0100_0000_01_000000000000000000_1101)⟩] :=
  ⟨by decide +kernel, rfl, by unfold climateReady nanBits; decide, _, rfl, by decide +kernel⟩

/-- RXA-4. -/
theorem witness_OwnVariantAFrameLoopsBack : paramsConformant msbParams = true ∧
    msbParams.constOrder = .msbFirst ∧ msbParams.fieldOrder = .byIndex ∧
    climateReady { cool .a with params := msbParams } ∧
    ∃ t, exec .tx { cool .a with params := msbParams } = .next t ∧ t.fields.tempCode ≠ 16 ∧
      t.txq = (cool .a).txq ++ [⟨38000,
        framed (wire 67 0b100_1_11_0_0_0001_00000000_0110_01001010000_0100_0000_01_000000000000000000_1101)⟩] :=
  ⟨by decide +kernel, rfl, rfl, by unfold climateReady nanBits; decide, _, rfl, by decide +kernel, by decide +kernel⟩

/-- RXA-4's outcome, on the capture of the frame that was sent. -/
theorem test_loopback_a :
    after (exec .rx { cool .a with params := msbParams, rxcap := captured (framed
      (wire 67 0b100_1_11_0_0_0001_00000000_0110_01001010000_0100_0000_01_000000000000000000_1101)) })
      (fun t => (readReg .status t, readReg .fields t, readReg .climate t, readReg .target t)) =
    some (0x00030010, 0x31000831, 0x052, 0x41C00000) := by decide +kernel

/-- RXB-4. -/
theorem witness_OwnVariantBFrameIsRejected : paramsConformant (cool .b).params = true ∧ climateReady (cool .b) ∧
    ∃ t, exec .tx (cool .b) = .next t ∧ t.txq = (cool .b).txq ++ [⟨38000, framed (wire 96
      0b1_00000000000000000000000000000000_0_000_11_000000000_00010_100_10100101_0000_1101)⟩] :=
  ⟨by decide +kernel, by unfold climateReady nanBits; decide, _, rfl, by decide +kernel⟩

/-- A pending read at the first offset, at the last and at CMD. -/
theorem witness_ReadsReturnTheRegisterOnly : ∀ p ∈ [(0x00, Reg.ctrl), (0x04, .cmd), (0x3C, .rawb3)],
    p ∈ [(0x00, Reg.ctrl), (0x04, .cmd), (0x08, .arg), (0x0C, .result), (0x10, .status), (0x14, .climate),
      (0x18, .target), (0x1C, .fields), (0x20, .blade), (0x24, .rxpush), (0x28, .rxlen), (0x2C, .unmapped),
      (0x30, .rawb0), (0x34, .rawb1), (0x38, .rawb2), (0x3C, .rawb3)] ∧
    (pending State.reset [.read p.1 .bits32]).inputs = .read (State.reset.params.base + p.1) .bits32 :: [] := by
  decide

theorem witness_ReadOnlyWritesAreIgnored : Reg.unmapped ∈ [Reg.result, .status, .blade, .rxlen, .rawb0, .rawb1, .rawb2,
      .rawb3, .unmapped] ∧
    (pending State.reset [.write 0x2C .bits32 0x1234]).inputs =
      .write (State.reset.params.base + regOffset .unmapped) .bits32 0x1234 :: [] := by decide

/-- Each of the five registers. -/
theorem witness_WritesReadBackMasked : ∀ r ∈ [Reg.ctrl, .arg, .climate, .target, .fields],
    (pending State.reset [.write (regOffset r) .bits32 0xFFFFFFFF]).inputs =
      .write (State.reset.params.base + regOffset r) .bits32 0xFFFFFFFF :: [] := by decide

/-- One pair short of full, and full. -/
theorem witness_RxpushAppendsOrOverflows :
    (pending State.reset [.write 0x24 .bits32 0x065E0294]).inputs =
      .write (State.reset.params.base + 0x24) .bits32 0x065E0294 :: [] ∧
    (receiving .a (List.replicate 255 ⟨660, 530⟩)).rxcap.length < 256 ∧
    256 ≤ (receiving .a (List.replicate 256 ⟨660, 530⟩)).rxcap.length :=
  ⟨rfl, by decide +kernel, by decide +kernel⟩

theorem witness_RegisterLayouts : (receiving .a (List.replicate 256 ⟨660, 530⟩)).rxcap.length < 65536 := by
  decide +kernel

/-- An access at each end of the window is admitted; an unaligned one and a narrow one are not. -/
theorem witness_OnlyAdmittedAccessesStep : admittedInput defaultParams (.read 0x00 .bits32) ∧
    admittedInput defaultParams (.write 0x3C .bits32 5) ∧ ¬ admittedInput defaultParams (.read 0x11 .bits32) ∧
    ¬ admittedInput defaultParams (.read 0x10 .bits8) ∧ ¬ admittedInput defaultParams (.write 0x40 .bits32 5) := by
  unfold admittedInput
  decide

theorem witness_NothingDependsOnBase :
    (∃ t, step (pending (cool .a) [.write 0x04 .bits32 0x20]) = .next t) ∧
      ∃ t, step (pending (cool .a) [.read 0x3C .bits32]) = .next t := ⟨⟨_, rfl⟩, _, rfl⟩

end Sys2Proof.Tests
end

section
/-! PROOFS. The Bit Codec commands REV, EMITB, EMITN and EMITR (spec/40_bit_codec.md R116-R119): each one's
next state through its operand form, and the statements about them. -/

namespace Sys2Proof.Machine

theorem exec_rev (len : Nat) (s : State) :
    exec (.rev len) s = .next (withLength len (setResult (reverseBits s.arg len)) s) := rfl

theorem exec_emitb (s : State) : exec .emitb s = .next (complete (transmit (emitBit s.arg) s)) := rfl

theorem exec_emitn (len : Nat) (s : State) :
    exec (.emitn len) s = .next (withLength len (transmit (emitBits s.arg len)) s) := rfl

theorem exec_emitr (len : Nat) (s : State) :
    exec (.emitr len) s = .next (withLength len (transmit (emitReversedBits s.arg len)) s) := rfl

theorem setResult_eq (v : Word) (s : State) : setResult v s = { s with result := v } := rfl

/-- What one transmission leaves, with the carrier of spec/00_scope.md R6 as a number. -/
theorem transmit_eq (items : List Item) (s : State) :
    transmit items s = { s with txq := s.txq ++ [⟨38000, items⟩] } := rfl

/-- One symbol in the durations of spec/30_encoding.md R85. -/
theorem symbols_singleton (b : Bool) : symbols [b] = [.mark 660, .space (if b then 1630 else 530)] := rfl

/-- Settles O23: the word's checks are the opcode row's, and the bits of RESULT those of reverseBits. -/
theorem revReversesTheLowBits : Obligations.RevReversesTheLowBits := by
  refine ⟨runsWithLen_of_row fun _ => rfl, fun len s => ⟨fun hlong => ?_, fun hshort => ?_⟩⟩
  · rw [exec_rev, withLength_long hlong, raise_eq]
  · refine ⟨reverseBits s.arg len, fun i hi => getLsbD_reverseBits s.arg len i hi, ?_⟩
    rw [exec_rev, withLength_short hshort, complete_eq, setResult_eq]

/-- Settles O24: EMITB has no operand to check, and its one transmission is the symbol of ARG[0]. -/
theorem emitbSendsTheSymbolOfBitZero : Obligations.EmitbSendsTheSymbolOfBitZero := by
  refine ⟨runsPlain_of_row fun _ => rfl, fun s => ?_⟩
  rw [exec_emitb, complete_eq, transmit_eq, emitBit_eq, symbols_singleton]

/-- Settles O25: emitBits sends the low bits most significant first. -/
theorem emitnSendsMostSignificantFirst : Obligations.EmitnSendsMostSignificantFirst := by
  refine ⟨runsWithLen_of_row fun _ => rfl, fun len s => ⟨fun hlong => ?_, fun hshort => ?_⟩⟩
  · rw [exec_emitn, withLength_long hlong, raise_eq]
  · rw [exec_emitn, withLength_short hshort, complete_eq, transmit_eq, emitBits_eq]

/-- Settles O26: for LEN up to 32, emitReversedBits sends the low bits least significant first. -/
theorem emitrSendsLeastSignificantFirst : Obligations.EmitrSendsLeastSignificantFirst := by
  refine ⟨runsWithLen_of_row fun _ => rfl, fun len s => ⟨fun hlong => ?_, fun hshort => ?_⟩⟩
  · rw [exec_emitr, withLength_long hlong, raise_eq]
  · rw [exec_emitr, withLength_short hshort, complete_eq, transmit_eq, emitReversedBits_eq _ _ hshort]

end Sys2Proof.Machine
end

section
/-! PROOFS. The Frame Encoder's command TX (spec/41_frame_encoder.md R130-R136): the record it reads from CLIMATE
and TARGET, what it leaves under each variant, and the statements about it. -/

namespace Sys2Proof.Machine

theorem exec_tx (s : State) : exec .tx s = .next (withClimate encodeRecord transmitFrame s) := rfl

/-- A command whose operand is computed from CLIMATE and TARGET raises their errors (spec/60_exceptions.md R234,
R235), if the operand has no value for a NaN. -/
theorem climateErrors_of_withClimate {α : Type} {i : Instr} {operand : State → Climate → Word → Option α}
    {effect : α → State → State} (hexec : ∀ s, exec i s = .next (withClimate (operand s) effect s))
    (hnan : ∀ s c t, nanBits t → operand s c t = none) : climateErrors i := by
  refine fun s => ⟨fun hunset => ?_, fun hc ht hbits => ?_⟩
  · rw [hexec, withClimate_uninit hunset, raise_eq]
  · rw [hexec, withClimate_badTemp hc ht (hnan s _ _ hbits), raise_eq]

theorem encodeRecord_nan (c : Climate) {t : Word} (h : nanBits t) : encodeRecord c t = none := by
  rw [encodeRecord, (encTemp_none t).mpr h, Option.map_none]

/-- The record carries the checksum of its own codes (spec/43_semantic_mapper.md R190, spec/44_checksum.md R200). -/
theorem toNat_csum_encodeRecord {c : Climate} {t : Word} {r : ProtocolFields} (h : encodeRecord c t = some r) :
    r.csum.toNat = (r.tempCode.toNat + r.modeCode.toNat + 2) % 16 := by
  obtain ⟨code, -, rfl⟩ := Option.map_eq_some_iff.mp h
  exact toNat_computeChecksum _ _

/-- FLAGS after a Variant A transmission: power, swing, light and tree-icon (spec/41_frame_encoder.md R134). -/
theorem packFlags_shownA (power swing : Bool) : packFlags power swing false false true true false =
    (if power then 1 else 0) ||| (if swing then 2 else 0) ||| 0x30 := by
  revert power swing
  decide

/-- FLAGS with power and swing alone (spec/41_frame_encoder.md R136, spec/43_semantic_mapper.md R190). -/
theorem packFlags_powerSwing (power swing : Bool) : packFlags power swing false false false false false =
    (if power then 1 else 0) ||| (if swing then 2 else 0) := by
  revert power swing
  decide

/-- What a Variant A transmission leaves: the stepped blade, the frame with its code, and the record shown. -/
theorem txA_eq (r : ProtocolFields) (s : State) :
    txA r s = { s with
      blade := bladeNext s.params s.blade (swingFlag r)
      txq := s.txq ++ [⟨38000, framed (layoutA r.modeCode (powerFlag r) r.fanCode (swingFlag r) r.tempCode
        (bladeCode s.params (bladeNext s.params s.blade (swingFlag r))) r.csum)⟩]
      fields := { r with
        blade := bladeCode s.params (bladeNext s.params s.blade (swingFlag r))
        flags := (if powerFlag r then 1 else 0) ||| (if swingFlag r then 2 else 0) ||| 0x30 } } := by
  rw [← frameA_eq, ← packFlags_shownA]
  rfl

/-- What a Variant B transmission leaves: the frame and the record shown; the blade is not stepped. -/
theorem txB_eq (r : ProtocolFields) (s : State) :
    txB r s = { s with
      txq := s.txq ++ [⟨38000, framed (layoutB r.modeCode (powerFlag r) r.fanCode r.tempCode r.csum)⟩]
      fields := { r with
        blade := 0
        flags := (if powerFlag r then 1 else 0) ||| (if swingFlag r then 2 else 0) } } := by
  rw [← frameB_eq, ← packFlags_powerSwing]
  rfl

/-- Settles O39: the word's checks are the opcode row's, the errors those of the operand, and the record's codes
and flags are those of CLIMATE and TARGET. -/
theorem txSendsTheVariantAFrame : Obligations.TxSendsTheVariantAFrame := by
  refine ⟨runsPlain_of_row fun _ => rfl,
    climateErrors_of_withClimate exec_tx fun _ c _ => encodeRecord_nan c, fun s hready hvariant => ?_⟩
  obtain ⟨r, hrecord, htemp, hmode, hfan⟩ := encodeRecord_ready hready
  obtain ⟨hpower, hswing⟩ := flags_encodeRecord hrecord
  refine ⟨r.tempCode, r.csum, _, _, htemp, hmode ▸ toNat_csum_encodeRecord hrecord, rfl, rfl, ?_⟩
  rw [exec_tx_ready hready hrecord, transmitFrame_a r hvariant, txA_eq, hmode, hfan, hpower, hswing]

/-- Settles O40: as for Variant A, with the layout of Variant B and no step of the blade. -/
theorem txSendsTheVariantBFrame : Obligations.TxSendsTheVariantBFrame := by
  intro s hready hvariant
  obtain ⟨r, hrecord, htemp, hmode, hfan⟩ := encodeRecord_ready hready
  obtain ⟨hpower, hswing⟩ := flags_encodeRecord hrecord
  refine ⟨r.tempCode, r.csum, htemp, hmode ▸ toNat_csum_encodeRecord hrecord, ?_⟩
  rw [exec_tx_ready hready hrecord, transmitFrame_b r hvariant, txB_eq, hmode, hfan, hpower, hswing]

end Sys2Proof.Machine
end

section
/-! PROOFS. The Frame Decoder's commands RX and RXCLR (spec/42_frame_decoder.md R150-R168): what an RX does to a
state, as a function fixed by CTRL.VARIANT, the parameters and RXCAP alone, and the statements about both. -/

namespace Sys2Proof.Machine

/-! ### RXCLR -/

theorem exec_rxclr (s : State) : exec .rxclr s = .next (complete (clearCapture s)) := rfl

theorem clearCapture_eq (s : State) :
    clearCapture s = { s with rxcap := [], status := { s.status with rxovf := false } } := rfl

/-- Settles O22: RXCLR has no operand to check, and an empty RXCAP reads as RXLEN = 0. -/
theorem rxclrEmptiesTheCapture : Obligations.RxclrEmptiesTheCapture := by
  refine ⟨runsPlain_of_row fun _ => rfl, fun s => ⟨_, exec_rxclr s, rfl, ?_⟩⟩
  rw [complete_eq, clearCapture_eq]

/-! ### The effects of RX -/

/-- All an RX under a variant can do to the state, whatever the state: reject with a reason
(spec/42_frame_decoder.md R164), accept a Variant A record (R157), or keep the raw bytes of a Variant B frame and
accept the zero record (R162, R163). -/
inductive RxEffect : Variant → (State → State) → Prop where
  | reject {v : Variant} {reason : Reason} (h : reason ≠ .none) : RxEffect v (withReject reason)
  | acceptA (r : ProtocolFields) : RxEffect .a (withAccept r (decodeRecord r))
  | acceptB (b : List Byte) : RxEffect .b fun s => withAccept .zero (decodeRecord .zero) (setRawBytes b s)

/-- Every RX has one of the effects, and the variant, the parameters and the capture alone fix which
(spec/42_frame_decoder.md R167). -/
theorem exec_rx_effect (v : Variant) (p : Params) (cap : List Pulse) :
    ∃ f, RxEffect v f ∧
      ∀ s : State, s.variant = v → s.params = p → s.rxcap = cap → exec .rx s = .next (f s) := by
  cases v with
  | a =>
    cases hscan : rxA p cap with
    | found r pos =>
      refine ⟨_, .acceptA r, ?_⟩
      rintro s hvariant rfl rfl
      rw [exec_rx_a hvariant, receiveA_found hscan]
    | rejected reason pos =>
      refine ⟨_, .reject (hasReason_rxA p cap reason pos hscan), ?_⟩
      rintro s hvariant rfl rfl
      rw [exec_rx_a hvariant, receiveA_rejected hscan]
  | b =>
    cases hscan : rxB p cap with
    | found b pos =>
      refine ⟨_, .acceptB b, ?_⟩
      rintro s hvariant rfl rfl
      rw [exec_rx_b hvariant, receiveB_found hscan]
    | rejected reason pos =>
      refine ⟨_, .reject (hasReason_rxB p cap reason pos hscan), ?_⟩
      rintro s hvariant rfl rfl
      rw [exec_rx_b hvariant, receiveB_rejected hscan]

/-- Every effect of RX clears ERR; only a reject leaves ACC = 0, and then it is the whole of the effect; an
acceptance leaves REASON = 0. -/
theorem RxEffect.status {v : Variant} {f : State → State} (h : RxEffect v f) (s : State) :
    (f s).status.err = .none ∧
      ((f s).status.acc = false → ∃ reason, reason ≠ .none ∧ f s = withReject reason s) ∧
      ((f s).status.acc = true → (f s).status.reason = .none) := by
  cases h with
  | reject hreason => exact ⟨rfl, fun _ => ⟨_, hreason, rfl⟩, fun hacc => nomatch hacc⟩
  | acceptA r => exact ⟨rfl, (fun hacc => nomatch hacc), fun _ => rfl⟩
  | acceptB b => exact ⟨rfl, (fun hacc => nomatch hacc), fun _ => rfl⟩

/-- Settles O43: RX has no operand to check, and its next state is that of one of its effects. -/
theorem rejectChangesStatusOnly : Obligations.RejectChangesStatusOnly := by
  refine ⟨runsPlain_of_row fun _ => rfl, fun s => ?_⟩
  obtain ⟨f, heffect, hexec⟩ := exec_rx_effect s.variant s.params s.rxcap
  exact ⟨f s, hexec s rfl rfl rfl, heffect.status s⟩

/-- Settles O48: both states take the same effect, and no effect of RX reads or writes what else they hold. -/
theorem rxRepeatsItsOutcome : Obligations.RxRepeatsItsOutcome := by
  intro s s' t hcap hvariant hparams ht
  obtain ⟨v, hv⟩ : ∃ v, s.variant = v := ⟨_, rfl⟩
  obtain ⟨f, heffect, hexec⟩ := exec_rx_effect v s.params s.rxcap
  obtain rfl : f s = t := Host.Outcome.next.inj ((hexec s hv rfl rfl).symm.trans ht)
  have ht' : exec .rx s' = .next (f s') := hexec s' (hvariant.trans hv) hparams hcap
  cases heffect with
  | reject => exact ⟨rfl, rfl, _, ht', rfl, rfl, rfl, fun hacc => nomatch hacc⟩
  | acceptA r =>
    exact ⟨rfl, rfl, _, ht', rfl, rfl, rfl, fun _ => ⟨rfl, rfl, rfl, ⟨_, rfl, rfl⟩,
      fun hb => absurd (hv.symm.trans hb) (by decide), fun _ => ⟨rfl, rfl, rfl, rfl⟩⟩⟩
  | acceptB b =>
    exact ⟨rfl, rfl, _, ht', rfl, rfl, rfl, fun _ => ⟨rfl, rfl, rfl, ⟨_, rfl, rfl⟩,
      fun _ => ⟨rfl, rfl, rfl, rfl⟩, fun ha => absurd (hv.symm.trans ha) (by decide)⟩⟩

/-! ### The record of a Variant A frame -/

theorem assemble_lt (order : AccumOrder) (bits : List Bool) : assemble order bits < 2 ^ bits.length := by
  cases order with
  | byIndex => exact byIndex_lt bits
  | msbFirst => exact (byIndex_lt bits.reverse).trans_eq (by rw [List.length_reverse])

/-- A field at least as wide as the symbols it is assembled from holds their value. -/
theorem toNat_ofNat_assemble {w : Nat} (order : AccumOrder) {bits : List Bool} (h : bits.length ≤ w) :
    (BitVec.ofNat w (assemble order bits)).toNat = assemble order bits := by
  rw [BitVec.toNat_ofNat, Nat.mod_eq_of_lt]
  exact (assemble_lt order bits).trans_le (Nat.pow_le_pow_right Nat.two_pos h)

/-- FLAGS holds the seven flags in the order of spec/10_state.md R39. -/
theorem lsbFirst_packFlags (power swing sleep turbo light tree blow : Bool) :
    lsbFirst (packFlags power swing sleep turbo light tree blow) 7 =
      [power, swing, sleep, turbo, light, tree, blow] := by
  revert power swing sleep turbo light tree blow
  decide

/-- The climate of a record by the two flags it depends on (spec/43_semantic_mapper.md R185-R191). -/
theorem decodeRecord_of_flags {r : ProtocolFields} {power swing : Bool} {rest : List Bool}
    (h : lsbFirst r.flags 7 = power :: swing :: rest) :
    decodeRecord r = ⟨if power then decMode r.modeCode else 0, decFan r.fanCode, if swing then 2 else 0,
      decTemp r.tempCode⟩ := by
  obtain ⟨rfl, hrest⟩ := List.cons.inj h
  obtain ⟨rfl, -⟩ := List.cons.inj hrest
  rfl

/-- The record a spelled Variant A layout with the right constant is read as (spec/42_frame_decoder.md R156). Each
field is wide enough for its symbols. -/
theorem rxA_recognizes {p : Params} {cap : List Pulse} {mode fan temp const : List Bool}
    {power swing sleep turbo light tree blow : Bool}
    (h3 : mode.length = 3) (h2 : fan.length = 2) (h4 : temp.length = 4) (h11 : const.length = 11)
    (hconst : assemble p.constOrder const = 0x250)
    (hspells : spells p cap
      (mode ++ [power] ++ fan ++ [swing] ++ [sleep] ++ temp ++ zeros 8 ++ [turbo, light, tree, blow] ++ const)) :
    ∃ r, rxA p cap = .found r 36 ∧
      r.modeCode.toNat = assemble p.fieldOrder mode ∧ r.fanCode.toNat = assemble p.fieldOrder fan ∧
      r.tempCode.toNat = assemble p.fieldOrder temp ∧ r.csum = 0 ∧ r.blade = 0 ∧
      lsbFirst r.flags 7 = [power, swing, sleep, turbo, light, tree, blow] :=
  ⟨_, (rxA_spelled h3 h2 h4 h11 hspells).trans (if_pos hconst), toNat_ofNat_assemble _ (by omega),
    toNat_ofNat_assemble _ (by omega), toNat_ofNat_assemble _ (by omega), rfl, rfl, lsbFirst_packFlags ..⟩

/-- Settles O44: the spelled frame is read as its record, whose flags give the climate. -/
theorem rxRecognizesVariantA : Obligations.RxRecognizesVariantA := by
  intro s mode fan temp const power swing sleep turbo light tree blow hvariant h3 h2 h4 h11 hconst hspells
  obtain ⟨r, hscan, hmode, hfan, htemp, hcsum, hblade, hflags⟩ := rxA_recognizes h3 h2 h4 h11 hconst hspells
  refine ⟨r, hmode, hfan, htemp, hcsum, hblade, hflags, ?_⟩
  rw [exec_rx_a hvariant, receiveA_found hscan, decodeRecord_of_flags hflags]

end Sys2Proof.Machine
end

section
/-! PROOFS. The Semantic Mapper (spec/43_semantic_mapper.md R180-R193): its tables, what MAPENC and MAPDEC leave
in the state, and the statements about them. -/

namespace Sys2Proof.Machine

/-! ### The tables -/

/-- Only LOW, MEDIUM and HIGH have a fan code of their own (spec/43_semantic_mapper.md R181). -/
theorem encFan_of_not_level {f : BitVec 4} (hlow : f ≠ 3) (hmedium : f ≠ 4) (hhigh : f ≠ 5) : encFan f = 0 := by
  revert f
  decide

theorem encSwing_eq (w : BitVec 2) : encSwing w = decide (w = 2) := rfl

theorem powerBit_eq (m : BitVec 3) : powerBit m = decide (m ≠ 0) := by
  revert m
  decide

/-- Settles O27: the rows of each table are evaluated; the fan modes without a row are those that are no level. -/
theorem mapperTablesAsWritten : Obligations.MapperTablesAsWritten := by
  refine ⟨?encMode, ⟨rfl, rfl, rfl, rfl, fun _ => encFan_of_not_level⟩, encSwing_eq, powerBit_eq, ?decMode, ?decFan,
    rfl, rfl⟩
  case encMode => decide
  case decMode => decide
  case decFan => decide

/-! ### MAPENC -/

theorem exec_mapenc (s : State) : exec .mapenc s = .next (withClimate encodeRecord setFields s) := rfl

theorem setFields_eq (r : ProtocolFields) (s : State) : setFields r s = { s with fields := r } := rfl

/-- The whole record of a climate state whose target has a code (spec/43_semantic_mapper.md R190). -/
theorem encodeRecord_eq {s : State} {c : BitVec 5} (h : encTemp s.target = some c) :
    encodeRecord s.climate s.target = some
      { modeCode := encMode s.climate.mode
        fanCode := encFan s.climate.fan
        tempCode := c
        csum := BitVec.ofNat 4 ((c.toNat + (encMode s.climate.mode).toNat + 2) % 16)
        blade := 0
        flags := (if poweredOn s then 1 else 0) ||| (if wantsVertical s then 2 else 0) } := by
  rw [encodeRecord, h, Option.map_some, packFlags_powerSwing, powerBit_eq, encSwing_eq]
  rfl

/-- Settles O31: the word's checks are the opcode row's, the errors those of the operand, and a state that raises
neither has a temperature code. -/
theorem mapencBuildsTheRecord : Obligations.MapencBuildsTheRecord := by
  refine ⟨runsPlain_of_row fun _ => rfl,
    climateErrors_of_withClimate exec_mapenc fun _ c _ => encodeRecord_nan c, fun s hready => ?_⟩
  obtain ⟨c, htemp⟩ := encTemp_ready hready
  obtain ⟨hcv, htv, -⟩ := hready
  refine ⟨c, htemp, ?_⟩
  rw [exec_mapenc, withClimate_ready hcv htv (encodeRecord_eq htemp), complete_eq, setFields_eq]

/-! ### MAPDEC -/

theorem exec_mapdec (s : State) : exec .mapdec s = .next (complete (commitClimate (decodeRecord s.fields) s)) := rfl

/-- What committing a climate leaves: the four values written, made valid and published once. -/
theorem commitClimate_eq (x : Published) (s : State) :
    commitClimate x s = { s with
      climate := ⟨x.mode, x.fan, x.swing⟩
      target := x.target
      status := { s.status with cv := true, tv := true }
      pubq := s.pubq ++ [x] } := rfl

/-- The climate of a record, its power and swing read from FLAGS (spec/43_semantic_mapper.md R189, R191). -/
theorem decodeRecord_eq (r : ProtocolFields) :
    decodeRecord r = ⟨if r.flags.getLsbD 0 then decMode r.modeCode else 0, decFan r.fanCode,
      if r.flags.getLsbD 1 then 2 else 0, decTemp r.tempCode⟩ :=
  decodeRecord_of_flags rfl

/-- Settles O32: MAPDEC has no operand to check, and it commits the climate of FIELDS. -/
theorem mapdecPublishesTheClimate : Obligations.MapdecPublishesTheClimate := by
  refine ⟨runsPlain_of_row fun _ => rfl, fun s => ⟨_, _, _, _, rfl, rfl, rfl, rfl, ?_⟩⟩
  rw [exec_mapdec, complete_eq, commitClimate_eq, decodeRecord_eq]

end Sys2Proof.Machine
end

section
/-! PROOFS. The Checksum's commands CSUM and CSUMV (spec/44_checksum.md R200-R203): the checksum as a register's
value, what verifying compares, and the statements about both commands. -/

namespace Sys2Proof.Machine

theorem exec_csum (s : State) :
    exec .csum s = .next (complete (setResult
      ((computeChecksum (argTempCode s.arg).toNat (argModeCode s.arg).toNat).setWidth 32) s)) := rfl

theorem exec_csumv (s : State) :
    exec .csumv s =
      .next (withClimate (verifyChecksum s.arg) (fun ok => setResult (if ok then 1 else 0)) s) := rfl

theorem toNat_argTempCode (arg : Word) : (argTempCode arg).toNat = arg.toNat % 256 := by
  rw [argTempCode, BitVec.extractLsb'_toNat, Nat.shiftRight_zero]

theorem toNat_argModeCode (arg : Word) : (argModeCode arg).toNat = arg.toNat / 256 % 256 := by
  rw [argModeCode, BitVec.extractLsb'_toNat, Nat.shiftRight_eq_div_pow]

/-- Extending the checksum to a register keeps its value (spec/44_checksum.md R200). -/
theorem toNat_setWidth_computeChecksum (t m : Nat) :
    ((computeChecksum t m).setWidth 32).toNat = (t + m + 2) % 16 := by
  rw [BitVec.toNat_setWidth_of_le (by decide), toNat_computeChecksum]

/-- Settles O33: CSUM has no operand to check, and its codes are the two low bytes of ARG. -/
theorem csumComputesTheChecksum : Obligations.CsumComputesTheChecksum := by
  refine ⟨runsPlain_of_row fun _ => rfl, fun s =>
    ⟨(computeChecksum (argTempCode s.arg).toNat (argModeCode s.arg).toNat).setWidth 32, ?_, ?_⟩⟩
  · rw [toNat_setWidth_computeChecksum, toNat_argTempCode, toNat_argModeCode]
  · rw [exec_csum, complete_eq, setResult_eq]

theorem verifyChecksum_nan (received : Word) (c : Climate) {t : Word} (h : nanBits t) :
    verifyChecksum received c t = none := by
  rw [verifyChecksum, (encTemp_none t).mpr h, Option.map_none]

/-- Verifying compares the whole received value, as a natural number (spec/44_checksum.md R201). -/
theorem verifyChecksum_eq (received : Word) (c : Climate) {t : Word} {code : BitVec 5} (h : encTemp t = some code) :
    verifyChecksum received c t =
      some (decide (received.toNat = (code.toNat + (encMode c.mode).toNat + 2) % 16)) := by
  rw [verifyChecksum, h, Option.map_some, beq_eq_decide, ← toNat_setWidth_computeChecksum]
  simp only [BitVec.toNat_inj]

/-- Settles O34: the word's checks are the opcode row's, the errors those of the operand, and a state that raises
neither has a temperature code, whose checksum ARG is compared with. -/
theorem csumvComparesTheWholeValue : Obligations.CsumvComparesTheWholeValue := by
  refine ⟨runsPlain_of_row fun _ => rfl,
    climateErrors_of_withClimate exec_csumv fun s c _ => verifyChecksum_nan s.arg c, fun s hready => ?_⟩
  obtain ⟨code, htemp⟩ := encTemp_ready hready
  obtain ⟨hcv, htv, -⟩ := hready
  refine ⟨code, htemp, ?_⟩
  rw [exec_csumv, withClimate_ready hcv htv (verifyChecksum_eq s.arg s.climate htemp), complete_eq, setResult_eq]
  simp only [decide_eq_true_eq]

end Sys2Proof.Machine
end

section
/-! PROOFS. The blade command BLNEXT (spec/45_blade.md R215): the position a code names, if there is one, the
command's next state in both cases, and the statement about it. -/

namespace Sys2Proof.Machine

/-- The list of positions misses none of the ten (spec/45_blade.md R210). -/
@[simp] theorem mem_bladePositions (b : BladePos) : b ∈ bladePositions := by
  cases b <;> decide

theorem bladeCode_of_bladeOfCode {p : Params} {code : BitVec 4} {b : BladePos} (h : bladeOfCode p code = some b) :
    bladeCode p b = code := by
  simpa using List.find?_some (p := fun b => bladeCode p b == code) h

theorem bladeOfCode_eq_none_iff {p : Params} {code : BitVec 4} :
    bladeOfCode p code = none ↔ ∀ b, bladeCode p b ≠ code := by
  simp [bladeOfCode, List.find?_eq_none]

/-- Under an injective BLADE_CODE the position found is the only one with the code (spec/45_blade.md R211). -/
theorem bladeOfCode_of_injective {p : Params} {code : BitVec 4} {b : BladePos}
    (hinj : ∀ a b, bladeCode p a = bladeCode p b → a = b) (hb : bladeCode p b = code) :
    bladeOfCode p code = some b := by
  cases hfound : bladeOfCode p code with
  | none => exact absurd hb (bladeOfCode_eq_none_iff.mp hfound b)
  | some a => rw [hinj a b ((bladeCode_of_bladeOfCode hfound).trans hb.symm)]

theorem exec_blnext_none {s : State} (h : bladeOfCode s.params (argBladeCode s.arg) = none) :
    exec .blnext s = .next (raise .badOperand s) := by
  simp only [exec, execBlnext, h]

theorem exec_blnext_some {s : State} {p : BladePos} (h : bladeOfCode s.params (argBladeCode s.arg) = some p) :
    exec .blnext s =
      .next (complete (setResult (bladeWord s.params (bladeNext s.params p (argVertical s.arg))) s)) := by
  simp only [exec, execBlnext, h]

/-- Settles O36: the word's checks are the opcode row's, and an injective BLADE_CODE leaves the table's entry for
the one position that ARG[3:0] names. -/
theorem blnextEvaluatesTheTable : Obligations.BlnextEvaluatesTheTable := by
  refine ⟨runsPlain_of_row fun _ => rfl, fun s => ⟨fun hnone => ?_, fun hinj p hp => ?_⟩⟩
  · rw [exec_blnext_none (bladeOfCode_eq_none_iff.mpr hnone), raise_eq]
  · rw [exec_blnext_some (bladeOfCode_of_injective hinj hp), complete_eq, setResult_eq, bladeWord, argVertical]

end Sys2Proof.Machine
end

section
/-! PROOFS. The control command NOP (spec/46_control.md R220-R224). -/

namespace Sys2Proof.Machine

theorem exec_nop (s : State) : exec .nop s = .next (complete s) := rfl

/-- Settles O21: NOP has no operand to check, and its completion is all that it does. -/
theorem nopOnlyClearsErr : Obligations.NopOnlyClearsErr := by
  refine ⟨runsPlain_of_row fun _ => rfl, fun s => ?_⟩
  rw [exec_nop, complete_eq]

end Sys2Proof.Machine
end

section
/-! PROOFS. Errors and completion (spec/60_exceptions.md R230-R249): which words are no command, how every command
ends, and the statements about both. -/

namespace Sys2Proof

/-- A command's opcode is one of the thirteen of spec/30_encoding.md R83. -/
theorem Instr.opcode_mem_map (i : Instr) :
    i.opcode ∈ ([0x00, 0x01, 0x02, 0x03, 0x04, 0x10, 0x11, 0x12, 0x13, 0x14, 0x20, 0x21, 0x22] :
      List (BitVec 8)) := by
  cases i <;> simp [opcode]

/-- Only the opcodes of REV, EMITN and EMITR have a LEN that need not be 0 (spec/30_encoding.md R81). -/
theorem Instr.lenOperand_eq_zero {i : Instr} (h : i.opcode ∉ ([0x01, 0x03, 0x04] : List (BitVec 8))) :
    i.lenOperand = 0 := by
  cases i with
  | rev | emitn | emitr => simp [opcode] at h
  | _ => rfl

namespace Machine

variable {w : Word} {i : Instr} {s t : State}

theorem runCommand_ok (h : decode w = .ok i) : runCommand w s = exec i s := by
  simp only [runCommand, h]

theorem runCommand_error {e : DecodeError} (h : decode w = .error e) :
    runCommand w s = .next (withError .illegalCmd s) := by
  simp only [runCommand, h, raise_eq]

/-- Settles O8: a word that decodes has RSV = 0, its command's opcode, and its command's LEN, so none of the three
causes. -/
theorem illegalWordsRaiseIllegalCmd : Obligations.IllegalWordsRaiseIllegalCmd := by
  intro w s hcause
  cases hdecode : decode w with
  | error e => exact runCommand_error hdecode
  | ok i =>
    obtain ⟨hrsv, hop, hlen⟩ := decode_ok hdecode
    rw [opField] at hop
    rw [hop] at hcause
    rcases hcause with hrsv' | hop' | ⟨hlen', hplain⟩
    · exact absurd hrsv hrsv'
    · exact absurd i.opcode_mem_map hop'
    · have hzero : (lenField w).toNat = 0 := hlen.trans (Instr.lenOperand_eq_zero hplain)
      exact absurd (BitVec.eq_of_toNat_eq hzero) hlen'

/-- An RX completes, whether or not it recognizes a frame (spec/42_frame_decoder.md R157, R164). -/
theorem err_of_exec_rx (h : exec .rx s = .next t) : t.status.err = .none := by
  obtain ⟨f, heffect, hexec⟩ := exec_rx_effect s.variant s.params s.rxcap
  obtain rfl : f s = t := Host.Outcome.next.inj ((hexec s rfl rfl rfl).symm.trans h)
  exact (heffect.status s).1

/-- How a command may end: with ERR = 0, or with one error, which changes nothing but ERR and ERRSEEN
(spec/60_exceptions.md R240, R241). -/
def CompletesOrRaises (s t : State) : Prop := t.status.err = .none ∨ t = withError t.status.err s

theorem withLength_completesOrRaises (len : Nat) (effect : State → State) (s : State) :
    CompletesOrRaises s (withLength len effect s) := by
  rcases withLength_cases len effect s with h | ⟨-, h⟩ <;> rw [h]
  · exact .inr rfl
  · exact .inl rfl

theorem withClimate_completesOrRaises {α : Type} (operand : Climate → Word → Option α)
    (effect : α → State → State) (s : State) : CompletesOrRaises s (withClimate operand effect s) := by
  rcases withClimate_cases (operand := operand) (effect := effect) (s := s) with h | h | ⟨_, -, h⟩ <;> rw [h]
  · exact .inr rfl
  · exact .inr rfl
  · exact .inl rfl

/-- Only a LEN, a climate or a blade code can make a command err; the others always complete
(spec/60_exceptions.md R233-R235). -/
theorem exec_completesOrRaises (i : Instr) (s : State) : ∃ t, exec i s = .next t ∧ CompletesOrRaises s t := by
  cases i with
  | rev | emitn | emitr => exact ⟨_, rfl, withLength_completesOrRaises ..⟩
  | mapenc | csumv | tx => exact ⟨_, rfl, withClimate_completesOrRaises ..⟩
  | blnext =>
    cases hcode : bladeOfCode s.params (argBladeCode s.arg) with
    | none => exact ⟨_, exec_blnext_none hcode, .inr rfl⟩
    | some p => exact ⟨_, exec_blnext_some hcode, .inl rfl⟩
  | rx =>
    obtain ⟨t, hexec⟩ := exec_next .rx s
    exact ⟨t, hexec, .inl (err_of_exec_rx hexec)⟩
  | nop | emitb | mapdec | csum | rxclr => exact ⟨_, rfl, .inl rfl⟩

/-- Settles O12: a word that decodes runs its command, which completes or raises one error; any other raises
ILLEGAL_CMD and is no RX. -/
theorem everyWordCompletesOrRaisesOneError : Obligations.EveryWordCompletesOrRaisesOneError := by
  intro w s
  cases hdecode : decode w with
  | error e => exact ⟨_, runCommand_error hdecode, .inr rfl, fun hrx => nomatch hrx⟩
  | ok i =>
    obtain ⟨t, hexec, hends⟩ := exec_completesOrRaises i s
    refine ⟨t, (runCommand_ok hdecode).trans hexec, hends, fun hrx => ?_⟩
    obtain rfl : i = .rx := Except.ok.inj hrx
    exact err_of_exec_rx hexec

end Machine

end Sys2Proof
end

section
/-! PROOFS. Reset (spec/70_reset_and_hazards.md R260-R262): the register words of the reset values, and the
statement about the state after reset. -/

namespace Sys2Proof.Machine

@[simp] theorem statusWord_reset : statusWord .reset = 0 := by decide

@[simp] theorem climateWord_reset : climateWord .reset = 0 := by decide

@[simp] theorem fieldsWord_zero : fieldsWord .zero = 0 := by decide

@[simp] theorem rxlenWord_nil : rxlenWord [] = 0 := by decide

/-- After reset every register but BLADE reads 0: three always do, the others hold a reset value whose word is 0
(spec/10_state.md R31, spec/70_reset_and_hazards.md R261). -/
theorem readReg_reset {r : Reg} (h : r ≠ .blade) : readReg r State.reset = 0 := by
  cases r with
  | blade => exact absurd rfl h
  | status => exact statusWord_reset
  | climate => exact climateWord_reset
  | fields => exact fieldsWord_zero
  | rxlen => exact rxlenWord_nil
  | cmd | rxpush | unmapped => rfl
  | ctrl | arg | result | target | rawb0 | rawb1 | rawb2 | rawb3 => rfl

/-- Settles O1: the registers by `readReg_reset`, BLADE and the rest by the fields of the reset state. -/
theorem resetStateIsAsTabled : Obligations.ResetStateIsAsTabled :=
  ⟨fun _ => readReg_reset, rfl, rfl, rfl, rfl⟩

end Sys2Proof.Machine
end

section
/-! PROOFS. The words of the registers (spec/10_state.md R31-R46): each field where the layout puts it. -/

namespace Sys2Proof.Machine

/-! ### RAWB -/

/-- Each byte of a RAWB word (spec/10_state.md R46). -/
theorem extractLsb'_rawWord (b0 b1 b2 b3 : Byte) :
    (rawWord b0 b1 b2 b3).extractLsb' 0 8 = b0 ∧ (rawWord b0 b1 b2 b3).extractLsb' 8 8 = b1 ∧
      (rawWord b0 b1 b2 b3).extractLsb' 16 8 = b2 ∧ (rawWord b0 b1 b2 b3).extractLsb' 24 8 = b3 := by
  simp (disch := decide) only [rawWord, BitVec.extractLsb'_setWidth_of_le, BitVec.extractLsb'_append_eq_of_add_le,
    BitVec.extractLsb'_append_eq_of_le, BitVec.extractLsb'_eq_self, Nat.reduceSub, and_self]

/-! ### CTRL, BLADE and RXLEN -/

/-- CTRL keeps VARIANT[0] of what is written (spec/10_state.md R32). -/
theorem ctrlWord_variantOfWord (v : Word) : ctrlWord (variantOfWord v) = v &&& 0x00000001 := by
  rw [show (0x00000001 : Word) = 1#32 from rfl, BitVec.and_one_eq_setWidth_ofBool_getLsbD, variantOfWord]
  cases v.getLsbD 0 <;> rfl

theorem ctrlWord_layout (v : Variant) : (ctrlWord v).getLsbD 0 = decide (v = .b) ∧
    ctrlWord v &&& 0xFFFFFFFE = 0 ∧ variantOfWord (ctrlWord v) = v := by
  cases v <;> decide

theorem toNat_bladeWord (p : Params) (b : BladePos) : (bladeWord p b).toNat = (bladeCode p b).toNat :=
  BitVec.toNat_setWidth_of_le (by decide)

theorem toNat_rxlenWord {cap : List Pulse} (h : cap.length < 65536) : (rxlenWord cap).toNat = cap.length := by
  rw [rxlenWord, BitVec.toNat_setWidth_of_le (by decide), BitVec.toNat_ofNat, Nat.mod_eq_of_lt h]

/-! ### CLIMATE (spec/10_state.md R38) -/

theorem climateWord_layout (c : Climate) : (climateWord c).extractLsb' 0 3 = c.mode ∧
    (climateWord c).extractLsb' 4 4 = c.fan ∧ (climateWord c).extractLsb' 8 2 = c.swing := by
  simp (disch := decide) only [climateWord, BitVec.extractLsb'_setWidth_of_le, BitVec.extractLsb'_append_eq_of_add_le,
    BitVec.extractLsb'_append_eq_of_le, BitVec.extractLsb'_eq_self, Nat.reduceSub, and_self]

theorem climateOfWord_climateWord (c : Climate) : climateOfWord (climateWord c) = c := by
  obtain ⟨hmode, hfan, hswing⟩ := climateWord_layout c
  rw [climateOfWord, hmode, hfan, hswing]

theorem climateWord_reserved (c : Climate) : climateWord c &&& 0xFFFFFC08 = 0 := by
  apply BitVec.eq_of_getLsbD_eq
  intro i hi
  simp only [climateWord, BitVec.getLsbD_and, BitVec.getLsbD_setWidth, BitVec.getLsbD_append]
  interval_cases i <;> simp

theorem climateWord_climateOfWord (v : Word) : climateWord (climateOfWord v) = v &&& 0x000003F7 := by
  apply BitVec.eq_of_getLsbD_eq
  intro i hi
  simp only [climateWord, climateOfWord, BitVec.getLsbD_and, BitVec.getLsbD_setWidth, BitVec.getLsbD_append,
    BitVec.getLsbD_extractLsb']
  interval_cases i <;> simp

/-! ### FIELDS (spec/10_state.md R39) -/

theorem fieldsWord_layout (f : ProtocolFields) : (fieldsWord f).extractLsb' 0 3 = f.modeCode ∧
    (fieldsWord f).extractLsb' 4 2 = f.fanCode ∧ (fieldsWord f).extractLsb' 8 5 = f.tempCode ∧
    (fieldsWord f).extractLsb' 16 4 = f.csum ∧ (fieldsWord f).extractLsb' 20 4 = f.blade ∧
    (fieldsWord f).extractLsb' 24 7 = f.flags := by
  simp (disch := decide) only [fieldsWord, BitVec.extractLsb'_setWidth_of_le, BitVec.extractLsb'_append_eq_of_add_le,
    BitVec.extractLsb'_append_eq_of_le, BitVec.extractLsb'_eq_self, Nat.reduceSub, and_self]

theorem fieldsOfWord_fieldsWord (f : ProtocolFields) : fieldsOfWord (fieldsWord f) = f := by
  obtain ⟨hmode, hfan, htemp, hcsum, hblade, hflags⟩ := fieldsWord_layout f
  rw [fieldsOfWord, hmode, hfan, htemp, hcsum, hblade, hflags]

theorem fieldsWord_reserved (f : ProtocolFields) : fieldsWord f &&& 0x8000E0C8 = 0 := by
  apply BitVec.eq_of_getLsbD_eq
  intro i hi
  simp only [fieldsWord, BitVec.getLsbD_and, BitVec.getLsbD_setWidth, BitVec.getLsbD_append]
  interval_cases i <;> simp

theorem fieldsWord_fieldsOfWord (v : Word) : fieldsWord (fieldsOfWord v) = v &&& 0x7FFF1F37 := by
  apply BitVec.eq_of_getLsbD_eq
  intro i hi
  simp only [fieldsWord, fieldsOfWord, BitVec.getLsbD_and, BitVec.getLsbD_setWidth, BitVec.getLsbD_append,
    BitVec.getLsbD_extractLsb']
  interval_cases i <;> simp

/-! ### STATUS (spec/10_state.md R37) -/

theorem statusWord_codes (x : Status) : (statusWord x).extractLsb' 0 4 = errCode x.err ∧
    (statusWord x).extractLsb' 8 3 = reasonCode x.reason := by
  simp (disch := decide) only [statusWord, BitVec.extractLsb'_setWidth_of_le, BitVec.extractLsb'_append_eq_of_add_le,
    BitVec.extractLsb'_append_eq_of_le, BitVec.extractLsb'_eq_self, Nat.reduceSub, and_self]

theorem statusWord_flags (x : Status) : (statusWord x).getLsbD 4 = x.acc ∧ (statusWord x).getLsbD 16 = x.cv ∧
    (statusWord x).getLsbD 17 = x.tv ∧ (statusWord x).getLsbD 18 = x.rxovf ∧
    (statusWord x).getLsbD 24 = x.errseen := by
  simp only [statusWord, BitVec.getLsbD_setWidth, BitVec.getLsbD_append, bit, BitVec.getLsbD_ofBool]
  simp

theorem statusWord_reserved (x : Status) : statusWord x &&& 0xFEF8F8E0 = 0 := by
  apply BitVec.eq_of_getLsbD_eq
  intro i hi
  simp only [statusWord, BitVec.getLsbD_and, BitVec.getLsbD_setWidth, BitVec.getLsbD_append]
  interval_cases i <;> simp

end Sys2Proof.Machine
end

section
/-! PROOFS. What one command and one step can do, as relations with a case for each effect: statements over all
commands and over every step split along these cases and never unfold a meaning. -/

namespace Sys2Proof.Machine

/-- All a command can do to the state, by the command: raise an error, or complete with its effect. -/
inductive ExecEffect (s : State) : Instr → State → Prop where
  | raised {i : Instr} {code : ErrCode} (hcode : code ≠ .none) (hrx : i ≠ .rx) (hrxclr : i ≠ .rxclr)
      (hmapdec : i ≠ .mapdec) : ExecEffect s i (raise code s)
  | nop : ExecEffect s .nop (complete s)
  | rev (n : Nat) (v : Word) : ExecEffect s (.rev n) (complete (setResult v s))
  | emitb (bits : List Bool) : ExecEffect s .emitb (complete (transmit (symbols bits) s))
  | emitn (n : Nat) (bits : List Bool) : ExecEffect s (.emitn n) (complete (transmit (symbols bits) s))
  | emitr (n : Nat) (bits : List Bool) : ExecEffect s (.emitr n) (complete (transmit (symbols bits) s))
  | mapenc (r : ProtocolFields) : ExecEffect s .mapenc (complete (setFields r s))
  | mapdec : ExecEffect s .mapdec (complete (commitClimate (decodeRecord s.fields) s))
  | csum (v : Word) : ExecEffect s .csum (complete (setResult v s))
  | csumv (v : Word) : ExecEffect s .csumv (complete (setResult v s))
  | blnext (v : Word) : ExecEffect s .blnext (complete (setResult v s))
  | txA {r : ProtocolFields} (hvariant : s.variant = .a) (hrecord : encodeRecord s.climate s.target = some r) :
      ExecEffect s .tx (complete (txA r s))
  | txB {r : ProtocolFields} (hvariant : s.variant = .b) (hrecord : encodeRecord s.climate s.target = some r) :
      ExecEffect s .tx (complete (txB r s))
  | rejected (reason : Reason) : ExecEffect s .rx (rejectFrame reason s)
  | acceptedA (hvariant : s.variant = .a) (r : ProtocolFields) : ExecEffect s .rx (acceptFrame r s)
  | acceptedB {b : List Byte} {pos : Nat} (hvariant : s.variant = .b) (hscan : rxB s.params s.rxcap = .found b pos) :
      ExecEffect s .rx (acceptFrame .zero (setRawBytes b s))
  | rxclr : ExecEffect s .rxclr (complete (clearCapture s))

theorem execEffect_receiveA {s : State} (h : s.variant = .a) : ExecEffect s .rx (receiveA s) := by
  rcases receiveA_cases s with ⟨reason, e⟩ | ⟨r, e⟩ <;> rw [e]
  · exact .rejected reason
  · exact .acceptedA h r

theorem execEffect_receiveB {s : State} (h : s.variant = .b) : ExecEffect s .rx (receiveB s) := by
  rcases receiveB_cases s with ⟨reason, e⟩ | ⟨b, pos, hscan, e⟩ <;> rw [e]
  · exact .rejected reason
  · exact .acceptedB h hscan

/-- Every next state of a command is one of its effects. -/
theorem exec_effect {i : Instr} {s t : State} (h : exec i s = .next t) : ExecEffect s i t := by
  rcases exec_cases h with ⟨code, hcode, -, hrx, hrxclr, hmapdec, -, -, rfl⟩ | ⟨rfl, rfl⟩ | ⟨n, rfl, -, rfl⟩ |
    ⟨rfl, rfl⟩ | ⟨n, rfl, -, rfl⟩ | ⟨n, rfl, hn, rfl⟩ | ⟨rfl, r, -, rfl⟩ | ⟨rfl, rfl⟩ | ⟨rfl, v, rfl⟩ |
    ⟨rfl, v, rfl⟩ | ⟨rfl, v, rfl⟩ | ⟨rfl, hvariant, r, hrecord, rfl⟩ | ⟨rfl, hvariant, r, hrecord, rfl⟩ |
    ⟨rfl, hvariant, rfl⟩ | ⟨rfl, hvariant, rfl⟩ | ⟨rfl, rfl⟩
  · exact .raised hcode hrx hrxclr hmapdec
  · exact .nop
  · exact .rev n _
  · exact emitBit_eq s.arg ▸ .emitb _
  · exact emitBits_eq s.arg n ▸ .emitn n _
  · exact emitReversedBits_eq s.arg n hn ▸ .emitr n _
  · exact .mapenc r
  · exact .mapdec
  · exact .csum v
  · exact .csumv v
  · exact .blnext v
  · exact .txA hvariant hrecord
  · exact .txB hvariant hrecord
  · exact execEffect_receiveA hvariant
  · exact execEffect_receiveB hvariant
  · exact .rxclr

/-- All a step can do: idle, or take the next access and reset, read, store, run a command or find none in the
word (spec/20_memory.md R64, R65, spec/70_reset_and_hazards.md R260, R261). -/
inductive StepEffect (s : State) : State → Prop where
  | idle (hnone : s.inputs = []) : StepEffect s s
  | reset {rest : List Input} (hnext : s.inputs = .reset :: rest) :
      StepEffect s (applyReset { s with inputs := rest })
  | read (rest : List Input) (r : Reg) : StepEffect s (readBus r { s with inputs := rest })
  | store (rest : List Input) (r : Reg) (v : Word) : StepEffect s (storeReg r v { s with inputs := rest })
  | illegal (rest : List Input) : StepEffect s (raise .illegalCmd { s with inputs := rest })
  | command {rest : List Input} {i : Instr} {t : State} (heffect : ExecEffect { s with inputs := rest } i t) :
      StepEffect s t

theorem writeReg_of_ne_cmd {r : Reg} (h : r ≠ .cmd) (v : Word) (s : State) :
    writeReg r v s = .next (storeReg r v s) := by
  cases r with
  | cmd => exact absurd rfl h
  | _ => rfl

/-- A write to CMD runs a command or raises ILLEGAL_CMD; a write to any other register stores. -/
theorem writeReg_effect {s t : State} {rest : List Input} {r : Reg} {v : Word}
    (h : writeReg r v { s with inputs := rest } = .next t) : StepEffect s t := by
  by_cases hcmd : r = .cmd
  · subst hcmd
    cases hdecode : decode v with
    | ok i => exact .command (exec_effect ((runCommand_ok hdecode).symm.trans h))
    | error e =>
      obtain rfl := Host.Outcome.next.inj ((runCommand_error hdecode).symm.trans h)
      exact .illegal rest
  · obtain rfl := Host.Outcome.next.inj ((writeReg_of_ne_cmd hcmd v _).symm.trans h)
    exact .store rest r v

theorem step_nil {s : State} (h : s.inputs = []) : step s = .next s := by
  simp only [step, serveNext, h]

theorem step_cons {s : State} {i : Input} {rest : List Input} (h : s.inputs = i :: rest) :
    step s = serveAccess i { s with inputs := rest } := by
  simp only [step, serveNext, h]

/-- Every next state of a step is one of its effects. -/
theorem step_effect {s t : State} (h : step s = .next t) : StepEffect s t := by
  cases hinputs : s.inputs with
  | nil =>
    obtain rfl := Host.Outcome.next.inj ((step_nil hinputs).symm.trans h)
    exact .idle hinputs
  | cons i rest =>
    rw [step_cons hinputs] at h
    cases i with
    | reset =>
      obtain rfl := Host.Outcome.next.inj h
      exact .reset hinputs
    | read addr width =>
      simp only [serveAccess] at h
      split at h
      · obtain rfl := Host.Outcome.next.inj h
        exact .read rest _
      · cases h
    | write addr width v =>
      simp only [serveAccess] at h
      split at h
      · exact writeReg_effect h
      · cases h

end Sys2Proof.Machine
end

section
/-! PROOFS. The invariant of the state (spec/10_state.md sections 2 and 3): it holds after reset, each operation
keeps it, and so does every step. -/

namespace Sys2Proof.Machine.State.Inv

variable {s : State}

theorem reset : State.reset.Inv where
  captureFits := by decide
  overflowFull := nofun
  errorSeen h := absurd rfl h
  accNoReason := nofun
  climateUnwritten _ := rfl
  targetUnwritten _ := rfl
  rawHeader := .inl ⟨rfl, rfl, rfl, rfl⟩
  transmissions := nofun
  publications := nofun
  params := by decide

/-- The host's accesses are no part of the invariant. -/
theorem inputs (h : s.Inv) (rest : List Input) : State.Inv { s with inputs := rest } := { h with }

theorem readBus (h : s.Inv) (r : Reg) : (readBus r s).Inv := { h with }

theorem applyReset (h : s.Inv) : (applyReset s).Inv :=
  { reset with transmissions := h.transmissions, publications := h.publications, params := h.params }

theorem raise (h : s.Inv) (code : ErrCode) : (raise code s).Inv := { h with errorSeen := fun _ => rfl }

theorem complete (h : s.Inv) : (complete s).Inv := { h with errorSeen := fun hnone => absurd rfl hnone }

theorem setResult (h : s.Inv) (v : Word) : (setResult v s).Inv := { h with }

theorem setFields (h : s.Inv) (r : ProtocolFields) : (setFields r s).Inv := { h with }

theorem setBlade (h : s.Inv) (b : BladePos) : (setBlade b s).Inv := { h with }

theorem transmit (h : s.Inv) {items : List Item} (halternates : alternates items = true) :
    (transmit items s).Inv :=
  { h with
    transmissions := fun x hx => by
      rcases List.mem_append.mp hx with hx | hx
      · exact h.transmissions x hx
      · obtain rfl := List.mem_singleton.mp hx
        exact ⟨rfl, halternates⟩ }

theorem commitClimate (h : s.Inv) {x : Published} (hx : publishedOk x) : (commitClimate x s).Inv :=
  { h with
    climateUnwritten := nofun
    targetUnwritten := nofun
    publications := fun y hy => by
      rcases List.mem_append.mp hy with hy | hy
      · exact h.publications y hy
      · obtain rfl := List.mem_singleton.mp hy
        exact hx }

theorem rejectFrame (h : s.Inv) (reason : Reason) : (rejectFrame reason s).Inv :=
  { h with errorSeen := fun hnone => absurd rfl hnone, accNoReason := nofun }

theorem acceptFrame (h : s.Inv) (r : ProtocolFields) : (acceptFrame r s).Inv :=
  { (h.setFields r).commitClimate (publishedOk_decodeRecord r) with
    errorSeen := fun hnone => absurd rfl hnone, accNoReason := fun _ => rfl }

theorem rawWord_header : rawWord 0x11 0xDA 0x17 0x18 = 0x1817DA11 := by decide

/-- The bytes of a recognized Variant B frame begin with the header bytes (spec/10_state.md R46). -/
theorem setRawBytes (h : s.Inv) {p : Params} {cap : List Pulse} {b : List Byte} {pos : Nat}
    (hscan : rxB p cap = .found b pos) : (setRawBytes b s).Inv := by
  obtain ⟨rest, rfl, -⟩ := rxB_header p cap hscan
  exact { h with rawHeader := .inr ⟨rawWord_header, (extractLsb'_rawWord ..).1⟩ }

theorem clearCapture (h : s.Inv) : (clearCapture s).Inv :=
  { h with captureFits := by simp, overflowFull := nofun }

theorem pushCapture (h : s.Inv) (x : Pulse) : (pushCapture x s).Inv := by
  by_cases hroom : s.rxcap.length < 256
  · rw [pushCapture_room hroom]
    refine { h with captureFits := ?_, overflowFull := fun hovf => ?_ }
    · simp; omega
    · exact absurd (h.overflowFull hovf) (by omega)
  · rw [pushCapture_full (by omega)]
    exact { h with overflowFull := fun _ => by have := h.captureFits; simp; omega }

theorem storeReg (h : s.Inv) (r : Reg) (v : Word) : (storeReg r v s).Inv := by
  cases r with
  | rxpush => exact h.pushCapture _
  | climate => exact { h with climateUnwritten := nofun }
  | target => exact { h with targetUnwritten := nofun }
  | ctrl | arg | fields => exact { h with }
  | cmd | result | status | blade | rxlen | unmapped | rawb0 | rawb1 | rawb2 | rawb3 => exact h

theorem exec {i : Instr} {t : State} (h : s.Inv) (heffect : ExecEffect s i t) : t.Inv := by
  cases heffect with
  | raised => exact h.raise _
  | nop => exact h.complete
  | rev | csum | csumv | blnext => exact (h.setResult _).complete
  | emitb | emitn | emitr => exact (h.transmit (alternates_symbols _)).complete
  | mapenc r => exact (h.setFields r).complete
  | mapdec => exact (h.commitClimate (publishedOk_decodeRecord _)).complete
  | txA => exact (((h.setBlade _).transmit (frameA_eq .. ▸ alternates_framed _)).setFields _).complete
  | txB => exact ((h.transmit (frameB_eq .. ▸ alternates_framed _)).setFields _).complete
  | rejected reason => exact h.rejectFrame reason
  | acceptedA _ r => exact h.acceptFrame r
  | acceptedB _ hscan => exact (h.setRawBytes hscan).acceptFrame _
  | rxclr => exact h.clearCapture.complete

theorem step {t : State} (h : s.Inv) (heffect : StepEffect s t) : t.Inv := by
  cases heffect with
  | idle => exact h
  | reset => exact (h.inputs _).applyReset
  | read rest r => exact (h.inputs rest).readBus r
  | store rest r v => exact (h.inputs rest).storeReg r v
  | illegal rest => exact (h.inputs rest).raise _
  | command heffect => exact (h.inputs _).exec heffect

end Sys2Proof.Machine.State.Inv

namespace Sys2Proof.Machine

/-- Settles O3: each part of the invariant, of the reset values. -/
theorem invariantHoldsAtReset : Obligations.InvariantHoldsAtReset := State.Inv.reset

/-- Settles O4: each effect of a step is made of operations that keep the invariant. -/
theorem everyStepKeepsInvariant : Obligations.EveryStepKeepsInvariant :=
  fun _ _ hinv hstep => hinv.step (step_effect hstep)

end Sys2Proof.Machine
end

section
/-! PROOFS. Command words (spec/30_encoding.md sections 1 and 2): decode and encode are inverse to each other on
the words that are commands, and a row's command is what its mask and match select. -/

namespace Sys2Proof

theorem Instr.wellFormed_iff (i : Instr) : i.wellFormed = true ↔ i.lenOperand < 64 := by
  cases i with
  | rev | emitn | emitr => exact decide_eq_true_iff
  | _ => exact iff_of_true rfl (by decide)

/-- The three fields of a word decide what it decodes to. -/
theorem decode_of_fields {w : Word} {i : Instr} (hrsv : rsvField w = 0) (hop : opField w = i.opcode)
    (hlen : (lenField w).toNat = i.lenOperand) : decode w = .ok i := by
  rw [decode, if_pos hrsv, hop, hlen, decodeOp_opcode]

/-- Settles O5: the word of a command has its opcode and LEN as fields, from which the opcode map reads it back. -/
theorem decodeReadsBackEveryEncoding : Obligations.DecodeReadsBackEveryEncoding := by
  intro i hi
  obtain ⟨hrsv, hop, hlen⟩ := Laws.EncodeFields.of_lenFits i.wellFormed_iff.mp hi
  exact decode_of_fields hrsv hop hlen

/-- Settles O6: RSV = 0, so the word is made of its opcode and its LEN, which are the command's. -/
theorem everyDecodedWordIsItsEncoding : Obligations.EveryDecodedWordIsItsEncoding := by
  intro w i hdecode
  obtain ⟨hrsv, hop, hlen⟩ := decode_ok hdecode
  refine ⟨?_, i.wellFormed_iff.mpr (hlen ▸ (lenField w).isLt)⟩
  rw [encode, ← hop, ← hlen, commandWord_fields w hrsv]

/-- A command without LEN has one word. -/
theorem decode_eq_iff {w : Word} {i : Instr} (hi : i.wellFormed = true) :
    decode w = .ok i ↔ w &&& 0xFFFFFFFF = encode i := by
  rw [show (0xFFFFFFFF : Word) = BitVec.allOnes 32 from rfl, BitVec.and_allOnes]
  constructor
  · intro hdecode
    exact (everyDecodedWordIsItsEncoding w i hdecode).1.symm
  · rintro rfl
    exact decodeReadsBackEveryEncoding i hi

/-- A word with RSV = 0 is made of its opcode and LEN. -/
theorem eq_commandWord_iff {w : Word} {op : BitVec 8} {len : Nat} :
    w = commandWord op len ↔ rsvField w = 0 ∧ opField w = op ∧ lenField w = BitVec.ofNat 6 len := by
  constructor
  · rintro rfl
    exact ⟨rsvField_commandWord .., opField_commandWord .., lenField_commandWord ..⟩
  · rintro ⟨hrsv, hop, hlen⟩
    rw [← commandWord_fields w hrsv, hop, hlen, commandWord, BitVec.ofNat_toNat, BitVec.setWidth_eq, commandWord]

theorem rsvField_and (w m : Word) : rsvField (w &&& m) = rsvField w &&& rsvField m := BitVec.extractLsb'_and

theorem opField_and (w m : Word) : opField (w &&& m) = opField w &&& opField m := BitVec.extractLsb'_and

theorem lenField_and (w m : Word) : lenField (w &&& m) = lenField w &&& lenField m := BitVec.extractLsb'_and

/-- The mask of a row with a LEN field keeps RSV and OP and drops LEN (spec/30_encoding.md R83). -/
theorem and_lenMask_eq_iff {w : Word} {op : BitVec 8} :
    w &&& 0xFFFFC0FF = commandWord op 0 ↔ rsvField w = 0 ∧ opField w = op := by
  have hrsv : rsvField (w &&& 0xFFFFC0FF) = rsvField w := by
    rw [rsvField_and, show rsvField 0xFFFFC0FF = BitVec.allOnes 18 by decide, BitVec.and_allOnes]
  have hop : opField (w &&& 0xFFFFC0FF) = opField w := by
    rw [opField_and, show opField 0xFFFFC0FF = BitVec.allOnes 8 by decide, BitVec.and_allOnes]
  have hlen : lenField (w &&& 0xFFFFC0FF) = BitVec.ofNat 6 0 := by
    rw [lenField_and, show lenField 0xFFFFC0FF = 0#6 by decide, BitVec.and_zero]
  rw [eq_commandWord_iff, hrsv, hop, hlen, and_iff_left rfl]

/-- A row whose LEN is an operand: RSV = 0 and the opcode select it, with any LEN. -/
theorem exists_decode_eq_iff {w : Word} (op : BitVec 8) {i : Nat → Instr} (hop : ∀ n, (i n).opcode = op)
    (hlen : ∀ n, (i n).lenOperand = n) :
    (∃ n, decode w = .ok (i n)) ↔ w &&& 0xFFFFC0FF = commandWord op 0 := by
  rw [and_lenMask_eq_iff]
  constructor
  · rintro ⟨n, hdecode⟩
    obtain ⟨hrsv, hw, -⟩ := decode_ok hdecode
    exact ⟨hrsv, hw.trans (hop n)⟩
  · rintro ⟨hrsv, hw⟩
    exact ⟨(lenField w).toNat, decode_of_fields hrsv (hw.trans (hop _).symm) (hlen _).symm⟩

/-- Settles O7: the rows without LEN by their one word, those with LEN by RSV and OP. -/
theorem decodingSelectsTheMatchingRow : Obligations.DecodingSelectsTheMatchingRow := fun _ =>
  ⟨decode_eq_iff rfl, exists_decode_eq_iff 0x01 (fun _ => rfl) (fun _ => rfl), decode_eq_iff rfl,
    exists_decode_eq_iff 0x03 (fun _ => rfl) (fun _ => rfl), exists_decode_eq_iff 0x04 (fun _ => rfl) (fun _ => rfl),
    decode_eq_iff rfl, decode_eq_iff rfl, decode_eq_iff rfl, decode_eq_iff rfl, decode_eq_iff rfl,
    decode_eq_iff rfl, decode_eq_iff rfl, decode_eq_iff rfl⟩

/-- Settles O9: each word is decoded. -/
theorem sampleWordsDecodeAsTabled : Obligations.SampleWordsDecodeAsTabled :=
  ⟨rfl, rfl, rfl, rfl, rfl, rfl, rfl, rfl, rfl, rfl⟩

end Sys2Proof
end

section
/-! PROOFS. What every command leaves and writes (spec/10_state.md sections 2 and 3, spec/45_blade.md R213), and what
every step keeps: one case for each effect. -/

namespace Sys2Proof.Machine

/-- Settles O13: no effect of a command touches them. -/
theorem noCommandWritesItsInputs : Obligations.NoCommandWritesItsInputs := by
  intro i s t hexec
  cases exec_effect hexec with
  | _ => exact ⟨rfl, rfl, rfl, rfl, rfl⟩

/-- Settles O14: the effects that touch RESULT are those of the four commands. -/
theorem onlyResultCommandsWriteResult : Obligations.OnlyResultCommandsWriteResult := by
  intro i s t hexec hresult
  cases exec_effect hexec with
  | rev | csum | csumv | blnext => simp
  | _ => exact absurd rfl hresult

/-- Settles O15: only a Variant A frame sets the blade, to the table's entry for the swing of its record. -/
theorem bladeStepsOnlyAtVariantATx : Obligations.BladeStepsOnlyAtVariantATx := by
  refine ⟨fun i s t hexec => ?_, fun s => rfl⟩
  cases exec_effect hexec with
  | raised hcode =>
    rw [if_neg fun h => hcode h.2.2]
    rfl
  | txA hvariant hrecord =>
    rw [if_pos ⟨rfl, hvariant, rfl⟩, ← (flags_encodeRecord hrecord).2]
    rfl
  | txB hvariant =>
    rw [hvariant]
    rfl
  | _ => rfl

/-- Settles O16: each effect leaves a stream as it is or adds one element, and its command says which. -/
theorem streamsGrowByTheirCommandsOnly : Obligations.StreamsGrowByTheirCommandsOnly := by
  intro i s t hexec
  cases exec_effect hexec with
  | raised hcode hrx _ hmapdec => simp [hcode, hrx, hmapdec]
  | txA => simp [txA_eq]
  | txB => simp [txB_eq]
  | _ => simp

/-- Settles O17: an error shows in ERR and ERRSEEN alone, and every other effect but those of RX, MAPDEC and RXCLR
writes ERR alone. -/
theorem statusFieldsHaveTheirWriters : Obligations.StatusFieldsHaveTheirWriters := by
  intro i s t hexec
  cases exec_effect hexec with
  | raised hcode hrx hrxclr hmapdec => simp [hcode, hrx, hrxclr, hmapdec]
  | txA => simp [txA_eq]
  | txB => simp [txB_eq]
  | _ => simp

/-- Settles O18: what each effect leaves in the five registers, by the command and, for RX, by the variant and its
outcome. -/
theorem registersHaveTheirWriters : Obligations.RegistersHaveTheirWriters := by
  intro i s t hexec
  cases exec_effect hexec with
  | raised _ _ hrxclr => simp [hrxclr]
  | acceptedA hvariant | acceptedB hvariant => simp [hvariant]
  | txA => simp [txA_eq]
  | txB => simp [txB_eq]
  | _ => simp

/-! ### Every step -/

/-- What every step but a reset keeps: ERRSEEN, and each stream but for one new element at its end
(spec/10_state.md R37, spec/20_memory.md R68). -/
def KeepsErrseenAndStreams (s t : State) : Prop :=
  (s.status.errseen = true → t.status.errseen = true) ∧
    (t.txq = s.txq ∨ ∃ x, t.txq = s.txq ++ [x]) ∧ (t.pubq = s.pubq ∨ ∃ x, t.pubq = s.pubq ++ [x])

theorem keeps_of_unchanged {s t : State} (herrseen : t.status.errseen = s.status.errseen) (htxq : t.txq = s.txq)
    (hpubq : t.pubq = s.pubq) : KeepsErrseenAndStreams s t :=
  ⟨herrseen.trans, .inl htxq, .inl hpubq⟩

theorem keeps_storeReg (r : Reg) (v : Word) (s : State) : KeepsErrseenAndStreams s (storeReg r v s) := by
  cases r with
  | rxpush =>
    rcases Nat.lt_or_ge s.rxcap.length 256 with hroom | hfull
    · simp only [storeReg, pushCapture_room hroom]
      exact keeps_of_unchanged rfl rfl rfl
    · simp only [storeReg, pushCapture_full hfull]
      exact keeps_of_unchanged rfl rfl rfl
  | _ => exact keeps_of_unchanged rfl rfl rfl

theorem keeps_execEffect {i : Instr} {s t : State} (h : ExecEffect s i t) : KeepsErrseenAndStreams s t := by
  cases h with
  | raised => exact ⟨fun _ => rfl, .inl rfl, .inl rfl⟩
  | emitb | emitn | emitr | txA | txB => exact ⟨id, .inr ⟨_, rfl⟩, .inl rfl⟩
  | mapdec | acceptedA | acceptedB => exact ⟨id, .inl rfl, .inr ⟨_, rfl⟩⟩
  | _ => exact keeps_of_unchanged rfl rfl rfl

/-- Settles O19: a reset keeps the streams, and every other effect of a step ERRSEEN too. -/
theorem everyStepKeepsErrseenAndStreams : Obligations.EveryStepKeepsErrseenAndStreams := by
  intro s t hstep
  cases step_effect hstep with
  | reset hnext => exact ⟨fun _ hnoreset => absurd hnext (hnoreset _), .inl rfl, .inl rfl⟩
  | idle | read => exact ⟨fun h _ => h, .inl rfl, .inl rfl⟩
  | illegal => exact ⟨fun _ _ => rfl, .inl rfl, .inl rfl⟩
  | store rest r v =>
    obtain ⟨herrseen, hstreams⟩ := keeps_storeReg r v { s with inputs := rest }
    exact ⟨fun h _ => herrseen h, hstreams⟩
  | command heffect =>
    obtain ⟨herrseen, hstreams⟩ := keeps_execEffect heffect
    exact ⟨fun h _ => herrseen h, hstreams⟩

/-! ### Two runs -/

/-- The checks of a command that reads CLIMATE and TARGET end alike in two states that agree on STATUS, CLIMATE and
TARGET. -/
theorem withClimate_sameChecks {α : Type} {operand : Climate → Word → Option α} {effect : α → State → State}
    {s s' : State} (hstatus : s'.status = s.status) (hclimate : s'.climate = s.climate)
    (htarget : s'.target = s.target) :
    (∃ code, code ≠ .none ∧ withClimate operand effect s = raise code s ∧
      withClimate operand effect s' = raise code s') ∨
    ∃ x, withClimate operand effect s = complete (effect x s) ∧
      withClimate operand effect s' = complete (effect x s') := by
  simp only [withClimate, hstatus, hclimate, htarget]
  split
  · cases operand s.climate s.target with
    | none => exact .inl ⟨.badTemp, by decide, rfl, rfl⟩
    | some x => exact .inr ⟨x, rfl, rfl⟩
  · exact .inl ⟨.uninit, by decide, rfl, rfl⟩

/-- A change of the state that every command but TX and RX carries along unread: what they read is as it was, and
each of their operations commutes with it. -/
structure Unread (g : State → State) : Prop where
  arg (s : State) : (g s).arg = s.arg
  status (s : State) : (g s).status = s.status
  climate (s : State) : (g s).climate = s.climate
  target (s : State) : (g s).target = s.target
  fields (s : State) : (g s).fields = s.fields
  params (s : State) : ∃ base, (g s).params = { s.params with base := base }
  raise (code : ErrCode) (s : State) : raise code (g s) = g (raise code s)
  complete (s : State) : complete (g s) = g (complete s)
  setResult (v : Word) (s : State) : setResult v (g s) = g (setResult v s)
  setFields (r : ProtocolFields) (s : State) : setFields r (g s) = g (setFields r s)
  transmit (items : List Item) (s : State) : transmit items (g s) = g (transmit items s)
  commitClimate (x : Published) (s : State) : commitClimate x (g s) = g (commitClimate x s)
  clearCapture (s : State) : clearCapture (g s) = g (clearCapture s)

namespace Unread

variable {g : State → State} (hg : Unread g) (s : State)
include hg

theorem withLength {effect : State → State} (len : Nat) (heffect : effect (g s) = g (effect s)) :
    withLength len effect (g s) = g (withLength len effect s) := by
  rcases Nat.lt_or_ge 32 len with hlong | hshort
  · rw [withLength_long hlong, withLength_long hlong, hg.raise]
  · rw [withLength_short hshort, withLength_short hshort, heffect, hg.complete]

theorem withClimate {α : Type} {operand : Climate → Word → Option α} {effect : α → State → State}
    (heffect : ∀ x, effect x (g s) = g (effect x s)) :
    withClimate operand effect (g s) = g (withClimate operand effect s) := by
  rcases withClimate_sameChecks (operand := operand) (effect := effect) (hg.status s) (hg.climate s) (hg.target s)
    with ⟨code, -, e, e'⟩ | ⟨x, e, e'⟩ <;> rw [e, e']
  · exact hg.raise code s
  · rw [heffect, hg.complete]

theorem exec_blnext : ∃ t, exec .blnext s = .next t ∧ exec .blnext (g s) = .next (g t) := by
  obtain ⟨base, hparams⟩ := hg.params s
  have hsame : bladeOfCode (g s).params (argBladeCode (g s).arg) = bladeOfCode s.params (argBladeCode s.arg) := by
    rw [hparams, hg.arg]
    rfl
  cases hcode : bladeOfCode s.params (argBladeCode s.arg) with
  | none => exact ⟨_, exec_blnext_none hcode, by rw [exec_blnext_none (hsame.trans hcode), hg.raise]⟩
  | some p =>
    refine ⟨_, exec_blnext_some hcode, ?_⟩
    rw [exec_blnext_some (hsame.trans hcode), hparams, hg.arg, hg.setResult, hg.complete]
    rfl

/-- A command other than TX and RX has the same effect before and after the change. -/
theorem exec_next {i : Instr} (htx : i ≠ .tx) (hrx : i ≠ .rx) :
    ∃ t, exec i s = .next t ∧ exec i (g s) = .next (g t) := by
  cases i with
  | nop => exact ⟨_, rfl, by rw [exec_nop, hg.complete]⟩
  | rev n => exact ⟨_, rfl, by rw [exec_rev, hg.arg, hg.withLength s n (hg.setResult _ s)]⟩
  | emitb => exact ⟨_, rfl, by rw [exec_emitb, hg.arg, hg.transmit, hg.complete]⟩
  | emitn n => exact ⟨_, rfl, by rw [exec_emitn, hg.arg, hg.withLength s n (hg.transmit _ s)]⟩
  | emitr n => exact ⟨_, rfl, by rw [exec_emitr, hg.arg, hg.withLength s n (hg.transmit _ s)]⟩
  | mapenc => exact ⟨_, rfl, by rw [exec_mapenc, hg.withClimate s fun r => hg.setFields r s]⟩
  | mapdec => exact ⟨_, rfl, by rw [exec_mapdec, hg.fields, hg.commitClimate, hg.complete]⟩
  | csum => exact ⟨_, rfl, by rw [exec_csum, hg.arg, hg.setResult, hg.complete]⟩
  | csumv => exact ⟨_, rfl, by rw [exec_csumv, hg.arg, hg.withClimate s fun _ => hg.setResult _ s]⟩
  | blnext => exact hg.exec_blnext s
  | tx => exact absurd rfl htx
  | rx => exact absurd rfl hrx
  | rxclr => exact ⟨_, rfl, by rw [exec_rxclr, hg.clearCapture, hg.complete]⟩

end Unread

/-- The state under another variant. -/
def withVariant (v : Variant) (s : State) : State := { s with variant := v }

theorem unread_withVariant (v : Variant) : Unread (withVariant v) :=
  ⟨fun _ => rfl, fun _ => rfl, fun _ => rfl, fun _ => rfl, fun _ => rfl, fun s => ⟨s.params.base, rfl⟩,
    fun _ _ => rfl, fun _ => rfl, fun _ _ => rfl, fun _ _ => rfl, fun _ _ => rfl, fun _ _ => rfl, fun _ => rfl⟩

/-- Settles O20: CTRL.VARIANT is unread. -/
theorem onlyTxAndRxReadTheVariant : Obligations.OnlyTxAndRxReadTheVariant := by
  intro i s t v htx hrx hexec
  obtain ⟨t', hexec', hvariant⟩ := (unread_withVariant v).exec_next s htx hrx
  obtain rfl := Host.Outcome.next.inj (hexec'.symm.trans hexec)
  exact hvariant

end Sys2Proof.Machine
end

section
/-! PROOFS. The exact arithmetic of the mapper (spec/43_semantic_mapper.md R183, R188, R194, spec/44_checksum.md R200):
the number a word is, its temperature code, and the way back. -/

namespace Sys2Proof.Machine

/-! ### The binary32 format -/

section

variable {t : Word} {e f : Nat}

theorem binary32_of_finite_exponent (he : e = (t.extractLsb' 23 8).toNat) (hf : f = (t.extractLsb' 0 23).toNat)
    (h : e ≠ 255) :
    binary32 t = .finite ((if t.getLsbD 31 then -1 else 1) * (binary32Magnitude e f : Int)) := by
  subst he hf
  rw [binary32, if_neg h]
  split
  · rw [neg_one_mul]
  · rw [one_mul]

theorem binary32_of_top_exponent (he : e = (t.extractLsb' 23 8).toNat) (hf : f = (t.extractLsb' 0 23).toNat)
    (h : e = 255) : binary32 t = if f = 0 then .inf (t.getLsbD 31) else .nan := by
  subst hf
  rw [binary32, if_pos (he.symm.trans h)]

theorem binary32Magnitude_zero (f : Nat) : binary32Magnitude 0 f = f := rfl

theorem binary32Magnitude_pos (he : 0 < e) (f : Nat) : binary32Magnitude e f = (2 ^ 23 + f) * 2 ^ (e - 1) :=
  if_neg he.ne'

end

/-! ### The temperature code -/

theorem toNat_ofInt_roundUnits {x : Int} (hlo : 0 ≤ x) (hhi : x ≤ 16 * 2 ^ 149) :
    ((BitVec.ofInt 5 (roundUnits x)).toNat : Int) = roundUnits x ∧ roundUnits x ≤ 16 := by
  obtain ⟨h1, h2⟩ := roundUnits_spec hlo
  have hround : 0 ≤ roundUnits x ∧ roundUnits x ≤ 16 := by
    norm_num at h1 h2 hhi
    omega
  rw [BitVec.toNat_ofInt]
  omega

/-- What `encTemp` rounds: the target clamped to [16, 32], less 16, in units of 2^-149. -/
def clampedUnits (u : Int) : Int := min (max u (16 * 2 ^ 149)) (32 * 2 ^ 149) - 16 * 2 ^ 149

theorem clampedUnits_bounds (u : Int) : 0 ≤ clampedUnits u ∧ clampedUnits u ≤ 16 * 2 ^ 149 := by
  unfold clampedUnits
  omega

theorem clampedUnits_low {u : Int} (h : u ≤ 16 * 2 ^ 149) : clampedUnits u = 0 := by
  unfold clampedUnits
  omega

theorem clampedUnits_high {u : Int} (h : 32 * 2 ^ 149 ≤ u) : clampedUnits u = 16 * 2 ^ 149 := by
  unfold clampedUnits
  omega

theorem clampedUnits_between {u : Int} (hlow : 16 * 2 ^ 149 ≤ u) (hhigh : u ≤ 32 * 2 ^ 149) :
    clampedUnits u = u - 16 * 2 ^ 149 := by
  unfold clampedUnits
  omega

theorem encTemp_eq_map (t : Word) : encTemp t =
    (clampUnits (16 * 2 ^ 149) (32 * 2 ^ 149) (binary32 t)).map fun x =>
      BitVec.ofInt 5 (roundUnits (x - 16 * 2 ^ 149)) := rfl

theorem encTemp_finite {t : Word} {u : Int} (h : binary32 t = .finite u) :
    encTemp t = some (BitVec.ofInt 5 (roundUnits (clampedUnits u))) := by
  have hclamp : clampUnits (16 * 2 ^ 149) (32 * 2 ^ 149) (.finite u) =
      some (min (max u (16 * 2 ^ 149)) (32 * 2 ^ 149)) := by
    rw [clampUnits]
    congr 1
    split_ifs <;> omega
  rw [encTemp_eq_map, h, hclamp]
  rfl

theorem encTemp_minusInf {t : Word} (h : binary32 t = .inf true) : encTemp t = some 0 := by
  rw [encTemp_eq_map, h]
  decide

theorem encTemp_plusInf {t : Word} (h : binary32 t = .inf false) : encTemp t = some 16 := by
  rw [encTemp_eq_map, h]
  decide

/-- No target has a code above 16. -/
theorem toNat_encTemp_le {t : Word} {c : BitVec 5} (h : encTemp t = some c) : c.toNat ≤ 16 := by
  cases hb : binary32 t with
  | nan => rw [encTemp_eq_map, hb] at h; cases h
  | inf negative =>
    cases negative with
    | true => rw [encTemp_minusInf hb] at h; cases h; decide
    | false => rw [encTemp_plusInf hb] at h; cases h; decide
  | finite u =>
    obtain rfl := Option.some.inj ((encTemp_finite hb).symm.trans h)
    obtain ⟨hlo, hhi⟩ := clampedUnits_bounds u
    have := toNat_ofInt_roundUnits hlo hhi
    omega

/-- Settles O28: the word's three fields give its number; its code is the rounding of the clamped target, which is
constant outside [16, 32]. -/
theorem encTempClampsAndRounds : Obligations.EncTempClampsAndRounds := by
  refine ⟨?format, ?finite, fun t => encTemp_minusInf, fun t => encTemp_plusInf⟩
  case format =>
    rintro t sign e f rfl he hf
    refine ⟨fun h0 => ?_, fun hpos htop => ?_, fun htop hzero => ?_, fun htop hnonzero => ?_⟩
    · rw [binary32_of_finite_exponent he hf (by omega), h0, binary32Magnitude_zero]
    · rw [binary32_of_finite_exponent he hf htop.ne, binary32Magnitude_pos hpos]
      push_cast
      rfl
    · rw [binary32_of_top_exponent he hf htop, if_pos hzero]
    · rw [binary32_of_top_exponent he hf htop, if_neg hnonzero]
  case finite =>
    intro t u hu
    refine ⟨_, encTemp_finite hu, fun hlow => ?_, fun hhigh => ?_, fun hlow hhigh => ?_⟩
    · rw [clampedUnits_low hlow]
      decide
    · rw [clampedUnits_high hhigh]
      decide
    · obtain ⟨hlo, hhi⟩ := clampedUnits_bounds u
      rw [(toNat_ofInt_roundUnits hlo hhi).1, ← clampedUnits_between hlow hhigh]
      exact roundUnits_spec hlo

/-- Settles O29: each of the 32 codes is decoded. -/
theorem decTempAddsSixteen : Obligations.DecTempAddsSixteen := by
  refine ⟨by decide, rfl, rfl, rfl⟩

/-- Settles O30: a target in [16, 32] is within half a degree of its code + 16 (O28), which is what the code decodes
to (O29); the rows of the other tables are evaluated. -/
theorem mapperRoundTrips : Obligations.MapperRoundTrips := by
  refine ⟨fun t u hu hlow hhigh => ?_, by decide, by decide, by decide⟩
  obtain ⟨c, hc, -, -, hround⟩ := encTempClampsAndRounds.2.1 t u hu
  obtain ⟨h1, h2⟩ := hround hlow hhigh
  refine ⟨c, c.toNat + 16, hc, decTempAddsSixteen.1 c, ?_, ?_⟩
  · linarith
  · linarith

/-- Settles O35: by the checksum's value as a natural number. -/
theorem checksumIsPeriodicInTemperature : Obligations.ChecksumIsPeriodicInTemperature := by
  intro t m
  refine ⟨toNat_computeChecksum t m, (computeChecksum t m).isLt, ?_⟩
  apply BitVec.eq_of_toNat_eq
  rw [toNat_computeChecksum, toNat_computeChecksum]
  omega

end Sys2Proof.Machine
end

section
/-! PROOFS. The Frame Encoder over several commands (spec/41_frame_encoder.md R138, spec/45_blade.md R212-R214,
spec/70_reset_and_hazards.md R272): what TX reads, the sizes of its frames, and the cycle of the blade. -/

namespace Sys2Proof.Machine

/-! ### What TX reads -/

/-- The state with other contents of FIELDS, ARG, RESULT and RXCAP. -/
def overwritten (f : ProtocolFields) (a r : Word) (cap : List Pulse) (s : State) : State :=
  { s with fields := f, arg := a, result := r, rxcap := cap }

/-- One frame reads none of the four and writes FIELDS only, to the record shown. -/
theorem transmitFrame_overwritten (x : ProtocolFields) (s : State) (f : ProtocolFields) (a r : Word)
    (cap : List Pulse) :
    transmitFrame x (overwritten f a r cap s) = overwritten (transmitFrame x s).fields a r cap (transmitFrame x s) := by
  cases hvariant : s.variant with
  | a =>
    rw [transmitFrame_a x hvariant, transmitFrame_a (s := overwritten f a r cap s) x hvariant]
    rfl
  | b =>
    rw [transmitFrame_b x hvariant, transmitFrame_b (s := overwritten f a r cap s) x hvariant]
    rfl

/-- Settles O41: the checks and the record of TX read STATUS, CLIMATE and TARGET alone, and then it sends one frame. -/
theorem txDoesNotReadTheOtherRegisters : Obligations.TxDoesNotReadTheOtherRegisters := by
  intro s t f a r cap hexec
  obtain rfl := Host.Outcome.next.inj hexec
  refine ⟨_, exec_tx (overwritten f a r cap s), ?_⟩
  rcases withClimate_sameChecks (operand := encodeRecord) (effect := transmitFrame) (s := s)
    (s' := overwritten f a r cap s) rfl rfl rfl with ⟨code, hcode, e, e'⟩ | ⟨x, e, e'⟩ <;> rw [e, e']
  · exact ⟨rfl, rfl, rfl, fun herr => absurd herr hcode, rfl⟩
  · rw [transmitFrame_overwritten]
    exact ⟨rfl, rfl, rfl, fun _ => rfl, rfl⟩

/-! ### The sizes of the frames -/

@[simp] theorem airtime_append (a b : List Item) : airtime (a ++ b) = airtime a + airtime b := by
  simp [airtime]

/-- A zero lasts 1190 us on the wire, and a one 1100 us more (spec/30_encoding.md R85). -/
theorem airtime_symbols (bits : List Bool) :
    airtime (symbols bits) = 1190 * bits.length + 1100 * bits.count true := by
  induction bits with
  | nil => rfl
  | cons b rest ih =>
    have hcons : symbols (b :: rest) = symbols [b] ++ symbols rest := symbols_append [b] rest
    rw [hcons, airtime_append, ih, symbols_singleton]
    cases b <;> simp [airtime, itemDuration] <;> omega

theorem airtime_framed (bits : List Bool) :
    airtime (framed bits) = 22010 + 1190 * bits.length + 1100 * bits.count true := by
  have hends : airtime [.mark 6050, .space 7450] = 13500 ∧ airtime [.mark 530, .space 7450, .mark 530] = 8510 := by
    decide
  rw [framed, airtime_append, airtime_append, airtime_symbols, hends.1, hends.2]
  omega

theorem length_framed (bits : List Bool) : (framed bits).length = 2 * bits.length + 5 := by
  simp [framed]

theorem length_layoutA (m : BitVec 3) (p : Bool) (f : BitVec 2) (w : Bool) (c : BitVec 5) (k e : BitVec 4) :
    (layoutA m p f w c k e).length = 67 := by
  simp [layoutA]

theorem length_layoutB (m : BitVec 3) (p : Bool) (f : BitVec 2) (c : BitVec 5) (e : BitVec 4) :
    (layoutB m p f c e).length = 96 := by
  simp [layoutB]

/-- Settles O42: the frame of either variant has the symbols of its layout. -/
theorem frameSizesAndAirtime : Obligations.FrameSizesAndAirtime := by
  intro s t hexec herr
  have hframe : ∃ bits : List Bool, t.txq = s.txq ++ [⟨38000, framed bits⟩] ∧
      bits.length = if s.variant = .a then 67 else 96 := by
    cases exec_effect hexec with
    | raised hcode => exact absurd herr hcode
    | txA hvariant => exact ⟨_, by rw [txA_eq]; rfl, by rw [if_pos hvariant, length_layoutA]⟩
    | txB hvariant => exact ⟨_, by rw [txB_eq]; rfl, by rw [hvariant, length_layoutB]; rfl⟩
  obtain ⟨bits, htxq, hlength⟩ := hframe
  refine ⟨bits, htxq, hlength, ?_, alternates_framed bits, airtime_framed bits⟩
  rw [length_framed, hlength]
  split <;> rfl



/-! ### Which frames are the same -/

theorem symbols_injective {a b : List Bool} (h : symbols a = symbols b) : a = b := by
  induction a generalizing b with
  | nil => exact (List.length_eq_zero_iff.mp (by simpa using (congrArg List.length h).symm)).symm
  | cons x a ih =>
    cases b with
    | nil => cases h
    | cons y b =>
      have hcons (z : Bool) (l : List Bool) :
          symbols (z :: l) = .mark 660 :: .space (if z then 1630 else 530) :: symbols l := symbols_append [z] l
      rw [hcons, hcons] at h
      simp only [List.cons.injEq, Item.space.injEq, true_and] at h
      obtain ⟨hspace, hrest⟩ := h
      have hxy : x = y := by cases x <;> cases y <;> simp_all
      rw [hxy, ih hrest]

theorem framed_injective {a b : List Bool} (h : framed a = framed b) : a = b := by
  simp only [framed, List.append_cancel_left_eq, List.append_cancel_right_eq] at h
  exact symbols_injective h

theorem lsbFirst_injective {w : Nat} {a b : BitVec w} (h : lsbFirst a w = lsbFirst b w) : a = b := by
  rw [← ofNat_byIndex_lsbFirst a, h, ofNat_byIndex_lsbFirst]

/-- A Variant A frame shows its blade code. -/
theorem layoutA_blade_injective {m : BitVec 3} {p : Bool} {f : BitVec 2} {w : Bool} {c : BitVec 5}
    {k k' e : BitVec 4} (h : layoutA m p f w c k e = layoutA m p f w c k' e) : k = k' := by
  simp only [layoutA, List.append_cancel_right_eq, List.append_cancel_left_eq] at h
  exact lsbFirst_injective h

/-! ### The blade's cycle -/

/-- Settles O37: each entry of the default tables is evaluated. -/
theorem defaultBladeTablesAsWritten : Obligations.DefaultBladeTablesAsWritten := ⟨rfl, rfl, rfl⟩

/-- A state whose next TX sends this record under Variant A. -/
structure SendsA (r : ProtocolFields) (s : State) : Prop where
  ready : climateReady s
  variant : s.variant = .a
  record : encodeRecord s.climate s.target = some r

namespace SendsA

variable {r : ProtocolFields} {s : State}

theorem exec (h : SendsA r s) : exec .tx s = .next (withDone (txA r s)) := by
  rw [exec_tx_ready h.ready h.record, transmitFrame_a r h.variant]

/-- TX changes nothing that TX reads but the blade. -/
theorem next (h : SendsA r s) : SendsA r (withDone (txA r s)) := ⟨h.ready, h.variant, h.record⟩

/-- Any number of TX commands send the same record, and each steps the blade. -/
theorem repeatTx (h : SendsA r s) (n : Nat) : ∃ t, repeatTx n s = .next t ∧ SendsA r t ∧ t.params = s.params ∧
    t.blade = (bladeNext s.params · (swingFlag r))^[n] s.blade := by
  induction n with
  | zero => exact ⟨s, rfl, h, rfl, rfl⟩
  | succ n ih =>
    obtain ⟨t, hrepeat, ht, hparams, hblade⟩ := ih
    refine ⟨_, ?_, ht.next, hparams, ?_⟩
    · rw [Machine.repeatTx, hrepeat]
      exact ht.exec
    · rw [Function.iterate_succ_apply', ← hblade, ← hparams]
      rfl

end SendsA

/-- The code of frame n + 1 from STOP, under the default table: the cycle has length 6 from L1 without vertical
intent, and 4 from FULL with it (spec/45_blade.md R214). -/
theorem bladeCode_iterate_bladeNext (vertical : Bool) (n : Nat) :
    bladeCode defaultParams ((bladeNext defaultParams · vertical)^[n + 1] .stop) =
      if vertical then ([0x1, 0x7, 0x9, 0xB] : List (BitVec 4)).getD (n % 4) 0
      else ([0x2, 0x3, 0x4, 0x5, 0x6, 0x0] : List (BitVec 4)).getD (n % 6) 0 := by
  rw [Function.iterate_succ_apply]
  cases vertical with
  | true =>
    have hperiod : Function.IsPeriodicPt (bladeNext defaultParams · true) 4 .full := rfl
    have hcode : ∀ k < 4, bladeCode defaultParams ((bladeNext defaultParams · true)^[k] .full) =
        ([0x1, 0x7, 0x9, 0xB] : List (BitVec 4)).getD k 0 := by decide
    rw [if_pos rfl, ← hcode _ (Nat.mod_lt n (by decide)), hperiod.iterate_mod_apply]
    rfl
  | false =>
    have hperiod : Function.IsPeriodicPt (bladeNext defaultParams · false) 6 .l1 := rfl
    have hcode : ∀ k < 6, bladeCode defaultParams ((bladeNext defaultParams · false)^[k] .l1) =
        ([0x2, 0x3, 0x4, 0x5, 0x6, 0x0] : List (BitVec 4)).getD k 0 := by decide
    rw [if_neg Bool.false_ne_true, ← hcode _ (Nat.mod_lt n (by decide)), hperiod.iterate_mod_apply]
    rfl

/-- No step of the default table keeps the code. -/
theorem bladeCode_bladeNext_ne (b : BladePos) (vertical : Bool) :
    bladeCode defaultParams (bladeNext defaultParams b vertical) ≠ bladeCode defaultParams b := by
  cases b <;> cases vertical <;> decide

/-- Settles O38: all frames carry one record, so the blade's code, which follows the cycle of the table, is all that
differs between two of them. -/
theorem defaultBladeCycles : Obligations.DefaultBladeCycles := by
  intro n s hparams hblade hvariant hready
  obtain ⟨r, hrecord, htemp, hmode, hfan⟩ := encodeRecord_ready hready
  obtain ⟨hpower, hswing⟩ := flags_encodeRecord hrecord
  obtain ⟨t, hrepeat, ht, htparams, htblade⟩ := SendsA.repeatTx ⟨hready, hvariant, hrecord⟩ n
  rw [hparams] at htparams
  have hcode : bladeCode t.params (bladeNext t.params t.blade (swingFlag r)) =
      if wantsVertical s then ([0x1, 0x7, 0x9, 0xB] : List (BitVec 4)).getD (n % 4) 0
      else ([0x2, 0x3, 0x4, 0x5, 0x6, 0x0] : List (BitVec 4)).getD (n % 6) 0 := by
    rw [← bladeCode_iterate_bladeNext, Function.iterate_succ_apply', htblade, htparams, hparams, hblade, hswing]
  refine ⟨_, _, bladeCode t.params (bladeNext t.params t.blade (swingFlag r)), r.csum, r.tempCode, _, _, t.txq, hcode,
    htemp, hmode ▸ toNat_csum_encodeRecord hrecord, ?_, rfl, rfl, ?_, ht.next.exec, List.append_assoc .., fun hsame => ?_⟩
  · rw [repeatTx, hrepeat]
    exact ht.exec
  · rw [← hmode, ← hfan, ← hpower, ← hswing]
    exact frameA_eq ..
  · have hlayout := framed_injective ((frameA_eq ..).symm.trans (hsame.trans (frameA_eq ..)))
    have hstep := bladeCode_bladeNext_ne (bladeNext t.params t.blade (swingFlag r)) (swingFlag r)
    rw [← htparams] at hstep
    exact hstep (layoutA_blade_injective hlayout).symm

end Sys2Proof.Machine
end

section
/-! PROOFS. The Frame Decoder's other outcomes (spec/42_frame_decoder.md R151-R164): the reject reasons of both
variants, each at the first check that fails, and the recognition of Variant B. -/

namespace Sys2Proof.Machine

variable {p : Params} {cap : List Pulse}

/-! ### A capture that ends in a pair that is no symbol -/

theorem andThen_assoc {α β γ : Type} (x : Scan α) (f : α → Nat → Scan β) (g : β → Nat → Scan γ) :
    andThen (andThen x f) g = andThen x fun v pos => andThen (f v pos) g := by
  cases x <;> rfl

/-- After the header the capture spells these symbols, and the pair at `stop`, right after them, is none. -/
structure EndsAt (p : Params) (cap : List Pulse) (bits : List Bool) (stop : Nat) : Prop where
  spelled : spellsFrom p cap 1 bits
  stop_eq : stop = bits.length + 1
  notOne : pairMatches p cap stop 660 1630 = false
  notZero : pairMatches p cap stop 660 530 = false

/-- The scan ends at a pair that is no symbol. -/
def RejectsSymbol {α : Type} (x : Scan α) : Prop := ∃ pos, x = .rejected .symbol pos

namespace EndsAt

variable {bits : List Bool} {stop pos : Nat} {β : Type} (h : EndsAt p cap bits stop)
include h

/-- A symbol is read before the end, and at the end the scan is rejected. -/
theorem andThen_readBit {k : Bool → Nat → Scan β} (hlo : 1 ≤ pos) (hpos : pos ≤ stop)
    (hk : ∀ b, bits[pos - 1]? = some b → pos + 1 ≤ stop → RejectsSymbol (k b (pos + 1))) :
    RejectsSymbol (andThen (readBit p cap pos) k) := by
  rcases hpos.eq_or_lt with rfl | hlt
  · rw [readBit_rejected p cap h.notOne h.notZero]
    exact ⟨_, rfl⟩
  · obtain ⟨b, hb⟩ : ∃ b, bits[pos - 1]? = some b :=
      ⟨_, List.getElem?_eq_getElem (by have := h.stop_eq; omega)⟩
    have hsymbol := h.spelled _ b hb
    rw [show 1 + (pos - 1) = pos by omega] at hsymbol
    rw [readBit_found p cap hsymbol]
    exact hk b hb hlt

theorem andThen_readBits {n : Nat} {k : List Bool → Nat → Scan β} (hlo : 1 ≤ pos) (hpos : pos ≤ stop)
    (hk : ∀ v, pos + n ≤ stop → RejectsSymbol (k v (pos + n))) :
    RejectsSymbol (andThen (readBits p cap n pos) k) := by
  induction n generalizing pos k with
  | zero => exact hk [] hpos
  | succ n ih =>
    simp only [readBits, andThen_assoc, andThen_found]
    refine h.andThen_readBit hlo hpos fun b _ hpos' => ih (by omega) hpos' fun v hv => ?_
    rw [show pos + 1 + n = pos + (n + 1) by omega] at hv ⊢
    exact hk (b :: v) hv

theorem andThen_readField {n : Nat} {order : AccumOrder} {k : Nat → Nat → Scan β} (hlo : 1 ≤ pos)
    (hpos : pos ≤ stop) (hk : ∀ v, pos + n ≤ stop → RejectsSymbol (k v (pos + n))) :
    RejectsSymbol (andThen (readField p cap n order pos) k) := by
  simp only [readField, andThen_assoc, andThen_found]
  exact h.andThen_readBits hlo hpos fun v => hk (assemble order v)

theorem andThen_readPad {n : Nat} {k : Unit → Nat → Scan β} (hlo : 1 ≤ pos) (hpos : pos ≤ stop)
    (hzeros : ∀ i, pos ≤ i + 1 → i + 1 < pos + n → bits[i]? ≠ some true)
    (hk : pos + n ≤ stop → RejectsSymbol (k () (pos + n))) :
    RejectsSymbol (andThen (readPad p cap n pos) k) := by
  induction n generalizing pos with
  | zero => exact hk hpos
  | succ n ih =>
    simp only [readPad, andThen_assoc]
    refine h.andThen_readBit hlo hpos fun b hb hpos' => ?_
    have hb' : b = false := by
      cases b with
      | false => rfl
      | true => exact absurd hb (hzeros (pos - 1) (by omega) (by omega))
    rw [hb', if_neg Bool.false_ne_true]
    refine ih (by omega) hpos' (fun i hlo' hhi' => hzeros i (by omega) (by omega)) fun hle => ?_
    rw [show pos + 1 + n = pos + (n + 1) by omega] at hle ⊢
    exact hk hle

/-- Variant A reads 35 symbols, so an earlier end rejects the frame, unless a 1 in the pad does before. -/
theorem rxA (hheader : pairMatches p cap 0 6050 7450 = true) (hlength : bits.length < 35)
    (hpad : ∀ k, 12 ≤ k → k < 20 → bits[k]? ≠ some true) : RejectsSymbol (rxA p cap) := by
  have hstop := h.stop_eq
  rw [Machine.rxA, readHeader_found p cap hheader, andThen_found]
  refine h.andThen_readField (by omega) (by omega) fun _ hpos => ?_
  refine h.andThen_readBit (by omega) hpos fun _ _ hpos => ?_
  refine h.andThen_readField (by omega) hpos fun _ hpos => ?_
  refine h.andThen_readBit (by omega) hpos fun _ _ hpos => ?_
  refine h.andThen_readBit (by omega) hpos fun _ _ hpos => ?_
  refine h.andThen_readField (by omega) hpos fun _ hpos => ?_
  refine h.andThen_readPad (by omega) hpos (fun i hlo hhi => hpad i (by omega) (by omega)) fun hpos => ?_
  refine h.andThen_readBit (by omega) hpos fun _ _ hpos => ?_
  refine h.andThen_readBit (by omega) hpos fun _ _ hpos => ?_
  refine h.andThen_readBit (by omega) hpos fun _ _ hpos => ?_
  refine h.andThen_readBit (by omega) hpos fun _ _ hpos => ?_
  refine h.andThen_readField (by omega) hpos fun _ hpos => ?_
  omega

end EndsAt

/-! ### Variant A -/

/-- The twelve symbols before the pad, in the groups the decoder reads (spec/30_encoding.md R92). -/
theorem exists_front_groups {front : List Bool} (h : front.length = 12) :
    ∃ (mode fan temp : List Bool) (power swing sleep : Bool),
      mode.length = 3 ∧ fan.length = 2 ∧ temp.length = 4 ∧
        front = mode ++ [power] ++ fan ++ [swing] ++ [sleep] ++ temp :=
  match front, h with
  | [m0, m1, m2, power, f0, f1, swing, sleep, t0, t1, t2, t3], _ =>
    ⟨[m0, m1, m2], [f0, f1], [t0, t1, t2, t3], power, swing, sleep, rfl, rfl, rfl, rfl⟩

theorem exists_status_symbols {status : List Bool} (h : status.length = 4) :
    ∃ turbo light tree blow, status = [turbo, light, tree, blow] :=
  match status, h with
  | [turbo, light, tree, blow], _ => ⟨turbo, light, tree, blow, rfl⟩

/-- A 1 in the pad rejects the frame whatever follows (spec/42_frame_decoder.md R154). -/
theorem rxA_pad {front : List Bool} {j : Nat} (hfront : front.length = 12) (hj : j < 8)
    (hspells : spells p cap (front ++ zeros j ++ [true])) : ∃ pos, rxA p cap = .rejected .pad pos := by
  obtain ⟨mode, fan, temp, power, swing, sleep, h3, h2, h4, rfl⟩ := exists_front_groups hfront
  obtain ⟨hheader, hspelled⟩ := hspells
  rw [List.append_assoc, spellsFrom_append] at hspelled
  obtain ⟨hgroups, hpad⟩ := hspelled
  rw [hfront] at hpad
  simp only [spellsFrom_append, spellsFrom_cons, List.length_append, List.length_cons, List.length_nil, h3, h2,
    spellsFrom_nil, and_true] at hgroups
  obtain ⟨⟨⟨⟨⟨hmode, hpower⟩, hfan⟩, hswing⟩, hsleep⟩, htemp⟩ := hgroups
  simp only [rxA, readHeader_found p cap hheader, andThen_found, readField_found p cap _ h3 hmode,
    readBit_found p cap hpower, readField_found p cap _ h2 hfan, readBit_found p cap hswing,
    readBit_found p cap hsleep, readField_found p cap _ h4 htemp, readPad_one p cap hj hpad, andThen_rejected]
  exact ⟨_, rfl⟩

/-- Settles O45: each clause by where the scan of Variant A ends. -/
theorem variantARejectReasons : Obligations.VariantARejectReasons := by
  intro s hvariant
  rw [exec_rx_a hvariant]
  refine ⟨fun hheader => ?_, fun front j hfront hj hspells => ?_, fun bits hlength hpad hspells hone hzero => ?_,
    fun front status const hfront hstatus hconst hspells hvalue => ?_⟩
  · have hscan : rxA s.params s.rxcap = .rejected .header 0 := by
      rw [rxA, readHeader_rejected _ _ hheader, andThen_rejected]
    rw [receiveA_rejected hscan]
  · obtain ⟨pos, hscan⟩ := rxA_pad hfront hj hspells
    rw [receiveA_rejected hscan]
  · have hends : EndsAt s.params s.rxcap bits (bits.length + 1) := ⟨hspells.2, rfl, hone, hzero⟩
    obtain ⟨pos, hscan⟩ := hends.rxA hspells.1 hlength hpad
    rw [receiveA_rejected hscan]
  · obtain ⟨mode, fan, temp, power, swing, sleep, h3, h2, h4, rfl⟩ := exists_front_groups hfront
    obtain ⟨turbo, light, tree, blow, rfl⟩ := exists_status_symbols hstatus
    rw [receiveA_rejected ((rxA_spelled h3 h2 h4 hconst hspells).trans (if_neg hvalue))]

/-! ### Variant B -/

/-- Bytes that begin as HDR_B does, as far as they go, are as required (spec/30_encoding.md R94). -/
theorem required_of_take {b : List Byte} (h : b.take 5 = hdrB.take b.length) (k : Nat) (x y : Byte)
    (hy : requiredBytes[k]? = some (some y)) (hx : b[k]? = some x) : x = y := by
  have hk : k < 5 := by
    by_contra hge
    rw [requiredBytes, List.getElem?_append_right (Nat.le_of_not_lt hge), List.getElem?_replicate] at hy
    split at hy <;> cases hy
  have hy' : hdrB[k]? = some y := by
    rw [requiredBytes, List.getElem?_append_left hk, List.getElem?_map] at hy
    simpa using hy
  have hlt : k < b.length := (List.getElem?_eq_some_iff.mp hx).1
  have hsame := congrArg (·[k]?) h
  simp only [List.getElem?_take_of_lt hk, List.getElem?_take_of_lt hlt, hx, hy'] at hsame
  exact Option.some.inj hsame

theorem rxB_header_found (h : pairMatches p cap 0 6050 7450 = true) :
    rxB p cap = readBytes p cap requiredBytes 1 := by
  rw [rxB, readHeader_found p cap h, andThen_found]

/-- Four bytes of a frame, from byte `i` on, as a RAWB word. -/
def rawWordAt (b : List Byte) (i : Nat) : Word :=
  rawWord (b.getD i 0) (b.getD (i + 1) 0) (b.getD (i + 2) 0) (b.getD (i + 3) 0)

theorem setRawBytes_eq (b : List Byte) (s : State) : setRawBytes b s =
    { s with
      rawb0 := rawWordAt b 0, rawb1 := rawWordAt b 4, rawb2 := rawWordAt b 8, rawb3 := rawWordAt b 12 } := rfl

/-- Byte `j` of the word is byte `i + j` of the frame (spec/10_state.md R46). -/
theorem getElem?_eq_rawWordAt {b : List Byte} {i j : Nat} (h : i + 4 ≤ b.length) (hj : j < 4) :
    b[i + j]? = some ((rawWordAt b i).extractLsb' (8 * j) 8) := by
  obtain ⟨h0, h1, h2, h3⟩ :=
    extractLsb'_rawWord (b.getD i 0) (b.getD (i + 1) 0) (b.getD (i + 2) 0) (b.getD (i + 3) 0)
  have hget : b[i + j]? = some (b.getD (i + j) 0) := by
    rw [List.getD, List.getElem?_eq_getElem (by omega), Option.getD_some]
  rw [hget, rawWordAt]
  interval_cases j
  · exact congrArg some h0.symm
  · exact congrArg some h1.symm
  · exact congrArg some h2.symm
  · exact congrArg some h3.symm

theorem decodeRecord_zero : decodeRecord .zero = ⟨0, 2, 0, 0x41800000⟩ := rfl

/-- Settles O46: the 16 bytes are read as they stand, and each RAWB word holds four of them. -/
theorem rxRecognizesVariantB : Obligations.RxRecognizesVariantB := by
  intro s b hvariant hlength htake hspells
  obtain ⟨hheader, hspelled⟩ := hspells
  have hscan : readBytes s.params s.rxcap requiredBytes 1 = .found b (1 + 8 * b.length) :=
    readBytes_found _ _ hlength (required_of_take (htake.trans (by rw [hlength]; rfl))) hspelled
  refine ⟨rawWordAt b 0, rawWordAt b 4, rawWordAt b 8, rawWordAt b 12, fun j hj => ⟨?_, ?_, ?_, ?_⟩, ?_⟩
  · simpa using getElem?_eq_rawWordAt (i := 0) (by omega) hj
  · exact getElem?_eq_rawWordAt (by omega) hj
  · exact getElem?_eq_rawWordAt (by omega) hj
  · exact getElem?_eq_rawWordAt (by omega) hj
  · rw [exec_rx_b hvariant, receiveB_found ((rxB_header_found hheader).trans hscan), setRawBytes_eq,
      decodeRecord_zero]

/-- The first wrong byte, after right ones, rejects the frame (spec/42_frame_decoder.md R161). -/
theorem readBytes_wrong {k : Nat} {x : Byte} (hk : k < 5) (hwrong : hdrB[k]? ≠ some x)
    (hspelled : spellsFrom p cap 1 ((hdrB.take k ++ [x]).flatMap fun y => lsbFirst y 8)) :
    ∃ pos, readBytes p cap requiredBytes 1 = .rejected .hdrByte pos := by
  have hlength : (hdrB.take k).length = (requiredBytes.take k).length := by
    rw [List.length_take, List.length_take, show hdrB.length = 5 from rfl, show requiredBytes.length = 16 from rfl]
    omega
  obtain ⟨y, hy, hsplit⟩ : ∃ y, hdrB[k]? = some y ∧
      requiredBytes = requiredBytes.take k ++ some y :: requiredBytes.drop (k + 1) := by
    interval_cases k <;> exact ⟨_, rfl, rfl⟩
  rw [hsplit]
  refine ⟨_, readBytes_mismatch p cap hlength (fun i z h hh hz => ?_) ?_ hspelled⟩
  · have htake : (hdrB.take k).take 5 = hdrB.take (hdrB.take k).length := by
      rw [List.take_take, List.length_take, min_comm]
      rfl
    rw [List.getElem?_take] at hh
    split at hh
    · exact required_of_take htake i z h hh hz
    · cases hh
  · rintro rfl
    exact hwrong hy

/-- Settles O47: each clause by where the scan of Variant B ends. -/
theorem variantBRejectReasons : Obligations.VariantBRejectReasons := by
  intro s hvariant
  rw [exec_rx_b hvariant]
  refine ⟨fun hheader => ?_, fun k x hk hspells hwrong => ?_, fun b part hlength hpart htake hspells hone hzero => ?_⟩
  · have hscan : rxB s.params s.rxcap = .rejected .header 0 := by
      rw [rxB, readHeader_rejected _ _ hheader, andThen_rejected]
    rw [receiveB_rejected hscan]
  · obtain ⟨hheader, hspelled⟩ := hspells
    obtain ⟨pos, hscan⟩ := readBytes_wrong hk hwrong hspelled
    rw [receiveB_rejected ((rxB_header_found hheader).trans hscan)]
  · obtain ⟨hheader, hspelled⟩ := hspells
    have hstop : 1 + 8 * b.length + part.length = 8 * b.length + part.length + 1 := by omega
    have hscan := readBytes_symbol s.params s.rxcap (required := requiredBytes) hlength hpart
      (required_of_take htake) hspelled (hstop ▸ hone) (hstop ▸ hzero)
    rw [receiveB_rejected ((rxB_header_found hheader).trans hscan)]

end Sys2Proof.Machine
end

section
/-! PROOFS. Loopback (spec/70_reset_and_hazards.md section 3): what RX makes of the capture of a frame that TX sent,
under any conformant MATCH. -/

namespace Sys2Proof.Machine

variable {s t : State} {items : List Item}

/-- What a TX that appended these items sent and shows, under Variant A. -/
theorem sent_txA (hvariant : s.variant = .a) (hready : climateReady s) (hexec : exec .tx s = .next t)
    (htxq : t.txq = s.txq ++ [⟨38000, items⟩]) :
    ∃ r code, encodeRecord s.climate s.target = some r ∧
      items = framed (layoutA r.modeCode (powerFlag r) r.fanCode (swingFlag r) r.tempCode code r.csum) ∧
      t.fields = shownA r code ∧ t.variant = .a ∧ t.params = s.params := by
  obtain ⟨r, hrecord, -⟩ := encodeRecord_ready hready
  obtain rfl := Host.Outcome.next.inj ((SendsA.exec ⟨hready, hvariant, hrecord⟩).symm.trans hexec)
  have hitems := List.append_cancel_left htxq
  simp only [List.cons.injEq, Transmission.mk.injEq, and_true] at hitems
  exact ⟨r, _, hrecord, hitems.2.symm.trans (frameA_eq ..), rfl, hvariant, rfl⟩

theorem sent_txB (hvariant : s.variant = .b) (hready : climateReady s) (hexec : exec .tx s = .next t)
    (htxq : t.txq = s.txq ++ [⟨38000, items⟩]) :
    ∃ r : ProtocolFields,
      items = framed (layoutB r.modeCode (powerFlag r) r.fanCode r.tempCode r.csum) ∧
      t.variant = .b ∧ t.params = s.params := by
  obtain ⟨r, hrecord, -⟩ := encodeRecord_ready hready
  obtain rfl := Host.Outcome.next.inj ((exec_tx_ready hready hrecord).symm.trans hexec)
  rw [transmitFrame_b r hvariant] at htxq ⊢
  have hitems := List.append_cancel_left htxq
  simp only [List.cons.injEq, Transmission.mk.injEq, and_true] at hitems
  exact ⟨r, hitems.2.symm.trans (frameB_eq ..), hvariant, rfl⟩

theorem spells_of_append {p : Params} {cap : List Pulse} {a b : List Bool} (h : spells p cap (a ++ b)) :
    spells p cap a :=
  ⟨h.1, ((spellsFrom_append p cap).mp h.2).1⟩

/-- The first byte of a sent Variant B frame, as RX reads it, is 0 (spec/30_encoding.md R90, R94). -/
theorem spells_sent_txB {p : Params} (hparams : paramsConformant p = true) (m : BitVec 3) (power : Bool)
    (f : BitVec 2) (c : BitVec 5) (e : BitVec 4) :
    spells p (captured (framed (layoutB m power f c e))) (lsbFirst (0x00 : Byte) 8) :=
  spells_of_append (b := (layoutB m power f c e).drop 8) (spells_captured hparams _)

/-- Settles O51: the first byte sent is 0, and the first header byte 0x11. -/
theorem ownVariantBFrameIsRejected : Obligations.OwnVariantBFrameIsRejected := by
  intro s t items hparams hvariant hready hexec htxq
  obtain ⟨r, hitems, htvariant, htparams⟩ := sent_txB hvariant hready hexec htxq
  rw [← htparams] at hparams
  obtain ⟨-, hbyte, -⟩ := variantBRejectReasons { t with rxcap := captured items } htvariant
  refine hbyte 0 0x00 (by decide) ?_ (by decide)
  rw [hitems]
  exact spells_sent_txB hparams ..

/-- The constant of a sent Variant A frame (spec/30_encoding.md R88). -/
def sentConst : List Bool := [false, true, false, false, true, false, true, false, false, false, false]

/-- The capture of a sent Variant A frame spells the symbols RX reads (spec/30_encoding.md R92). -/
theorem spells_sent_txA {p : Params} (hparams : paramsConformant p = true) (m : BitVec 3) (power : Bool)
    (f : BitVec 2) (swing : Bool) (c : BitVec 5) (k e : BitVec 4) :
    spells p (captured (framed (layoutA m power f swing c k e)))
      (lsbFirst m 3 ++ [power] ++ lsbFirst f 2 ++ [swing] ++ [false] ++ lsbFirst c 4 ++ zeros 8 ++
        [false, true, true, false] ++ sentConst) := by
  obtain ⟨tail, htail⟩ := layoutA_received m power f swing c k e
  have hspells := spells_captured hparams (layoutA m power f swing c k e)
  rw [htail] at hspells ⊢
  exact spells_of_append hspells

/-- Settles O49: by index the sent constant is 0x52, not 0x250. -/
theorem ownVariantAFrameIsRejectedByIndex : Obligations.OwnVariantAFrameIsRejectedByIndex := by
  intro s t items hparams hvariant horder hready hexec htxq
  obtain ⟨r, code, -, hitems, -, htvariant, htparams⟩ := sent_txA hvariant hready hexec htxq
  rw [← htparams] at hparams horder
  obtain ⟨-, -, -, hconst⟩ := variantARejectReasons { t with rxcap := captured items } htvariant
  refine hconst _ [false, true, true, false] sentConst ?_ rfl rfl (hitems ▸ spells_sent_txA hparams ..) ?_
  · simp
  · simp only [horder]
    decide

/-- The low bits of a value, assembled by index, are the value modulo a power of 2. -/
theorem assemble_byIndex_lsbFirst {w : Nat} (v : BitVec w) (n : Nat) :
    assemble .byIndex (lsbFirst v n) = v.toNat % 2 ^ n := by
  apply Nat.eq_of_testBit_eq
  intro i
  rw [assemble, testBit_byIndex, Nat.testBit_mod_two_pow, BitVec.testBit_toNat]
  by_cases hi : i < n <;> simp [lsbFirst, List.getD, hi]

theorem encodeRecord_codes {c : Climate} {x : Word} {r : ProtocolFields} (h : encodeRecord c x = some r) :
    encTemp x = some r.tempCode ∧ r.modeCode = encMode c.mode ∧ r.fanCode = encFan c.fan := by
  obtain ⟨code, hcode, rfl⟩ := Option.map_eq_some_iff.mp h
  exact ⟨hcode, rfl, rfl⟩

/-- A mode the mapper has comes back from its power flag and code (spec/43_semantic_mapper.md R189, R194). -/
theorem mode_roundTrip : ∀ m ∈ [modeOff, modeHeatCool, modeCool, modeDry, modeFanOnly, modeHeat],
    (if decide (m ≠ 0) then decMode (encMode m) else 0) = m := by decide

theorem swing_roundTrip : ∀ w ∈ [swingOff, swingVertical], (if decide (w = 2) then 2 else 0) = w := by decide

/-- The record RX reads from the capture of a sent Variant A frame: the codes and flags sent, with the four bits of
the temperature that are on the wire. -/
theorem exec_rx_sent_txA {t : State} (hparams : paramsConformant t.params = true) (hvariant : t.variant = .a)
    (hconst : t.params.constOrder = .msbFirst) (hfield : t.params.fieldOrder = .byIndex) (r : ProtocolFields)
    (code : BitVec 4) (hitems : items = framed
      (layoutA r.modeCode (powerFlag r) r.fanCode (swingFlag r) r.tempCode code r.csum)) :
    ∃ r' : ProtocolFields, r'.modeCode = r.modeCode ∧ r'.fanCode = r.fanCode ∧ r'.flags = (shownA r code).flags ∧
      r'.tempCode.toNat = r.tempCode.toNat % 16 ∧ r'.csum = 0 ∧ r'.blade = 0 ∧
      exec .rx { t with rxcap := captured items } = .next (withAccept r'
        ⟨if powerFlag r then decMode r'.modeCode else 0, decFan r'.fanCode, if swingFlag r then 2 else 0,
          decTemp r'.tempCode⟩ { t with rxcap := captured items }) := by
  obtain ⟨r', hmode, hfan, htemp, hcsum, hblade, hflags, hrx⟩ := rxRecognizesVariantA
    { t with rxcap := captured items } _ _ _ sentConst (powerFlag r) (swingFlag r) false false true true false hvariant
    (length_lsbFirst ..) (length_lsbFirst ..) (length_lsbFirst ..) rfl (by simp only [hconst]; decide)
    (hitems ▸ spells_sent_txA hparams ..)
  simp only [hfield, assemble_byIndex_lsbFirst] at hmode hfan htemp
  exact ⟨r', BitVec.eq_of_toNat_eq (hmode.trans (Nat.mod_eq_of_lt r.modeCode.isLt)),
    BitVec.eq_of_toNat_eq (hfan.trans (Nat.mod_eq_of_lt r.fanCode.isLt)),
    lsbFirst_injective (hflags.trans (lsbFirst_packFlags ..).symm), htemp, hcsum, hblade, hrx⟩

/-- Settles O50: the record read has the codes sent, and the mapper's round trips give the climate back. -/
theorem ownVariantAFrameLoopsBack : Obligations.OwnVariantAFrameLoopsBack := by
  intro s t items hparams hvariant hconst hfield hready hexec htxq
  obtain ⟨r, code, hrecord, hitems, htfields, htvariant, htparams⟩ := sent_txA hvariant hready hexec htxq
  obtain ⟨hpower, hswing⟩ := flags_encodeRecord hrecord
  obtain ⟨htempCode, hmodeCode, hfanCode⟩ := encodeRecord_codes hrecord
  rw [← htparams] at hparams hconst hfield
  obtain ⟨r', hmode, hfan, hflags, htemp, hcsum, hblade, hrx⟩ :=
    exec_rx_sent_txA hparams htvariant hconst hfield r code hitems
  refine ⟨_, hrx, rfl, hmode.trans (congrArg ProtocolFields.modeCode htfields).symm,
    hfan.trans (congrArg ProtocolFields.fanCode htfields).symm, hflags.trans (congrArg _ htfields.symm),
    htemp.trans (congrArg (·.tempCode.toNat % 16) htfields.symm), hcsum, hblade, fun hm => ?_, fun hf => ?_, fun hw => ?_, fun h16 => ?_⟩
  · rw [hpower, hmode, hmodeCode]
    exact mode_roundTrip _ hm
  · obtain ⟨-, -, hfanTrip, -⟩ := mapperRoundTrips
    rw [hfan, hfanCode]
    exact hfanTrip _ hf
  · rw [hswing]
    exact swing_roundTrip _ hw
  · rw [htfields] at h16 ⊢
    have hle := toNat_encTemp_le htempCode
    have hne : r.tempCode.toNat ≠ 16 := fun h => h16 (BitVec.eq_of_toNat_eq h)
    exact congrArg decTemp (BitVec.eq_of_toNat_eq (htemp.trans (Nat.mod_eq_of_lt (by omega))))

end Sys2Proof.Machine
end

section
/-! PROOFS. The register window and the step (spec/10_state.md section 2, spec/20_memory.md, spec/46_control.md R220,
spec/70_reset_and_hazards.md): which accesses step, what a read and a write do, and the layouts. -/

namespace Sys2Proof.Machine

/-! ### Steps -/

/-- Settles O11: an empty queue serves nothing. -/
theorem stepWithoutInputIdles : Obligations.StepWithoutInputIdles := fun _ => step_nil

/-- Settles O2: the reset is served, and each register takes its reset value. -/
theorem platformResetKeepsStreams : Obligations.PlatformResetKeepsStreams := by
  intro s rest hnext
  refine ⟨_, step_cons hnext, rfl, rfl, fun r hr => ?_, rfl, rfl, rfl, rfl, rfl⟩
  rw [← readReg_reset hr]
  cases r with
  | blade => exact absurd rfl hr
  | _ => rfl

/-- A 32-bit write at a register's offset is a write to the register. -/
theorem step_write {s : State} {rest : List Input} {r : Reg} {v : Word}
    (h : s.inputs = .write (s.params.base + regOffset r) .bits32 v :: rest) :
    step s = writeReg r v { s with inputs := rest } := by
  simp only [step_cons h, serveAccess, admit_reg, regAt_regOffset]

theorem step_read {s : State} {rest : List Input} {r : Reg}
    (h : s.inputs = .read (s.params.base + regOffset r) .bits32 :: rest) :
    step s = .next (readBus r { s with inputs := rest }) := by
  simp only [step_cons h, serveAccess, admit_reg, regAt_regOffset]

/-- Settles O10: a write at offset 4 runs the word, and `withFetchWord` places one. -/
theorem stepRunsTheCommandWord : Obligations.StepRunsTheCommandWord := by
  intro s rest w
  refine ⟨fun hnext => step_write (r := .cmd) hnext, ?_, fun i hdecode => runCommand_ok hdecode, fun hnone => ?_⟩
  · have hw : BitVec.ofNat 32 (w.toNat % 2 ^ 32) = w := by
      rw [Nat.mod_eq_of_lt w.isLt, BitVec.ofNat_toNat, BitVec.setWidth_eq]
    rw [State.withFetchWord, hw]
    exact step_write (s := placeCommand w s) (r := .cmd) rfl
  · cases hdecode : decode w with
    | ok i => exact absurd hdecode (hnone i)
    | error e => exact runCommand_error hdecode

/-- Settles O53: the offsets are evaluated, and a read at one of them is a read of its register. -/
theorem readsReturnTheRegisterOnly : Obligations.ReadsReturnTheRegisterOnly := by
  intro s rest off r hmem
  have hoff : regOffset r = off := by
    have htable : ∀ x ∈ [(0x00, Reg.ctrl), (0x04, .cmd), (0x08, .arg), (0x0C, .result), (0x10, .status),
        (0x14, .climate), (0x18, .target), (0x1C, .fields), (0x20, .blade), (0x24, .rxpush), (0x28, .rxlen),
        (0x2C, .unmapped), (0x30, .rawb0), (0x34, .rawb1), (0x38, .rawb2), (0x3C, .rawb3)],
        regOffset x.2 = x.1 := by decide
    exact htable _ hmem
  refine ⟨hoff, fun hnext => ?_, ?_⟩
  · rw [← hoff] at hnext
    exact step_read hnext
  · rintro (rfl | rfl | rfl) <;> rfl

/-- Settles O54: none of these registers is CMD, and each ignores what is stored. -/
theorem readOnlyWritesAreIgnored : Obligations.ReadOnlyWritesAreIgnored := by
  intro s rest r v hmem hnext
  rw [step_write hnext]
  cases r with
  | ctrl | cmd | arg | climate | target | fields | rxpush => simp at hmem
  | _ => rfl

theorem toNat_pulseOfWord (v : Word) :
    (pulseOfWord v).mark.toNat = v.toNat % 65536 ∧ (pulseOfWord v).space.toNat = v.toNat / 65536 := by
  refine ⟨?_, ?_⟩
  · rw [pulseOfWord, BitVec.extractLsb'_toNat, Nat.shiftRight_zero]
  · rw [pulseOfWord, BitVec.extractLsb'_toNat, Nat.shiftRight_eq_div_pow]
    omega

/-- Settles O56: the access is a push, which appends its pair or drops it. -/
theorem rxpushAppendsOrOverflows : Obligations.RxpushAppendsOrOverflows := by
  intro s rest v hnext
  have hstep : step s = .next (pushCapture (pulseOfWord v) { s with inputs := rest }) :=
    step_write (r := .rxpush) hnext
  rw [hstep]
  refine ⟨fun hroom => ?_, fun hfull => ?_⟩
  · obtain ⟨hmark, hspace⟩ := toNat_pulseOfWord v
    exact ⟨_, hmark, hspace, congrArg _ (pushCapture_room hroom)⟩
  · exact congrArg _ (pushCapture_full hfull)

/-! ### Which accesses step -/

/-- An access is admitted at its offset, or it faults; reads and writes are admitted alike. -/
theorem admitAccess_cases (p : Params) (addr : Nat) (width : AccessWidth) :
    (admittedInput p (.read addr width) ∧ admitAccess p.base addr width = .ok (addr - p.base)) ∨
      (¬ admittedInput p (.read addr width) ∧ ∃ f, admitAccess p.base addr width = .error f) := by
  cases hadmit : admitAccess p.base addr width with
  | ok off =>
    obtain ⟨hlo, hhi, hwidth, halign, rfl⟩ := admit_ok_iff.mp hadmit
    exact .inl ⟨⟨hlo, hhi, hwidth, halign⟩, rfl⟩
  | error f =>
    refine .inr ⟨fun ⟨hlo, hhi, hwidth, halign⟩ => ?_, f, rfl⟩
    cases hadmit.symm.trans (admit_ok_iff.mpr ⟨hlo, hhi, hwidth, halign, rfl⟩)

/-- Serving an admitted access has a next state; any other faults. -/
theorem serveAccess_cases (i : Input) (s : State) :
    (admittedInput s.params i ∧ ∃ t, serveAccess i s = .next t) ∨
      (¬ admittedInput s.params i ∧ ∃ f, serveAccess i s = .fault f) := by
  cases i with
  | reset => exact .inl ⟨trivial, _, rfl⟩
  | read addr width =>
    rcases admitAccess_cases s.params addr width with ⟨hin, e⟩ | ⟨hout, f, e⟩
    · exact .inl ⟨hin, readBus (regAt (addr - s.params.base)) s, by simp only [serveAccess, e]⟩
    · exact .inr ⟨hout, f, by simp only [serveAccess, e]⟩
  | write addr width v =>
    rcases admitAccess_cases s.params addr width with ⟨hin, e⟩ | ⟨hout, f, e⟩
    · obtain ⟨t, ht⟩ := writeReg_next (regAt (addr - s.params.base)) v s
      exact .inl ⟨hin, t, by simp only [serveAccess, e, ht]⟩
    · exact .inr ⟨hout, f, by simp only [serveAccess, e]⟩

/-- Settles O59: a step serves the first input, which has a next state just where it is admitted. -/
theorem onlyAdmittedAccessesStep : Obligations.OnlyAdmittedAccessesStep := by
  intro s
  cases hinputs : s.inputs with
  | nil =>
    rw [step_nil hinputs]
    exact ⟨iff_of_true ⟨s, rfl⟩ (fun _ _ h => nomatch h), fun _ h => nomatch h⟩
  | cons i rest =>
    have hfirst : (∀ j rest', i :: rest = j :: rest' → admittedInput s.params j) ↔ admittedInput s.params i := by
      refine ⟨fun h => h i rest rfl, ?_⟩
      rintro h j rest' ⟨⟩
      exact h
    rw [step_cons hinputs, hfirst]
    rcases serveAccess_cases i { s with inputs := rest } with ⟨hin, t, ht⟩ | ⟨hout, f, hf⟩
    · rw [ht]
      exact ⟨iff_of_true ⟨t, rfl⟩ hin, fun _ h => nomatch h⟩
    · rw [hf]
      exact ⟨iff_of_false (fun ⟨_, h⟩ => nomatch h) hout, fun _ h => nomatch h⟩

/-! ### BASE -/

/-- The state of a block whose window stands at another address. -/
def withBase (base : Nat) (s : State) : State := { s with params := { s.params with base := base } }

theorem unread_withBase (base : Nat) : Unread (withBase base) :=
  ⟨fun _ => rfl, fun _ => rfl, fun _ => rfl, fun _ => rfl, fun _ => rfl, fun _ => ⟨base, rfl⟩,
    fun _ _ => rfl, fun _ => rfl, fun _ _ => rfl, fun _ _ => rfl, fun _ _ => rfl, fun _ _ => rfl, fun _ => rfl⟩

theorem transmitFrame_withBase (r : ProtocolFields) (base : Nat) (s : State) :
    transmitFrame r (withBase base s) = withBase base (transmitFrame r s) := by
  cases hvariant : s.variant with
  | a =>
    rw [transmitFrame_a r hvariant, transmitFrame_a (s := withBase base s) r hvariant]
    rfl
  | b =>
    rw [transmitFrame_b r hvariant, transmitFrame_b (s := withBase base s) r hvariant]
    rfl

/-- A receive attempt matches pairs under MATCH and reads the two orders, and no other parameter. -/
theorem receiveA_withBase (base : Nat) (s : State) : receiveA (withBase base s) = withBase base (receiveA s) := by
  have hscan : rxA (withBase base s).params (withBase base s).rxcap = rxA s.params s.rxcap := rfl
  cases h : rxA s.params s.rxcap with
  | found r pos =>
    rw [receiveA_found h, receiveA_found (hscan.trans h)]
    rfl
  | rejected reason pos =>
    rw [receiveA_rejected h, receiveA_rejected (hscan.trans h)]
    rfl

theorem receiveB_withBase (base : Nat) (s : State) : receiveB (withBase base s) = withBase base (receiveB s) := by
  have hscan : rxB (withBase base s).params (withBase base s).rxcap = rxB s.params s.rxcap := rfl
  cases h : rxB s.params s.rxcap with
  | found b pos =>
    rw [receiveB_found h, receiveB_found (hscan.trans h)]
    rfl
  | rejected reason pos =>
    rw [receiveB_rejected h, receiveB_rejected (hscan.trans h)]
    rfl

theorem exec_withBase (i : Instr) (base : Nat) (s : State) :
    ∃ t, exec i s = .next t ∧ exec i (withBase base s) = .next (withBase base t) := by
  cases i with
  | tx =>
    refine ⟨_, exec_tx s, ?_⟩
    rw [exec_tx, (unread_withBase base).withClimate s fun r => transmitFrame_withBase r base s]
  | rx =>
    cases hvariant : s.variant with
    | a => exact ⟨_, exec_rx_a hvariant, by
        rw [exec_rx_a (s := withBase base s) hvariant, receiveA_withBase]⟩
    | b => exact ⟨_, exec_rx_b hvariant, by
        rw [exec_rx_b (s := withBase base s) hvariant, receiveB_withBase]⟩
  | _ => exact (unread_withBase base).exec_next s (by simp) (by simp)

theorem runCommand_withBase (w : Word) (base : Nat) (s : State) :
    ∃ t, runCommand w s = .next t ∧ runCommand w (withBase base s) = .next (withBase base t) := by
  cases hdecode : decode w with
  | ok i =>
    rw [runCommand_ok hdecode, runCommand_ok hdecode]
    exact exec_withBase i base s
  | error e => exact ⟨_, runCommand_error hdecode, runCommand_error hdecode⟩

theorem storeReg_withBase (r : Reg) (v : Word) (base : Nat) (s : State) :
    storeReg r v (withBase base s) = withBase base (storeReg r v s) := by
  cases r with
  | rxpush =>
    rcases Nat.lt_or_ge s.rxcap.length 256 with hroom | hfull
    · simp only [storeReg, pushCapture_room hroom]
      exact pushCapture_room hroom
    · simp only [storeReg, pushCapture_full hfull]
      exact pushCapture_full hfull
  | _ => rfl

theorem writeReg_withBase (r : Reg) (v : Word) (base : Nat) (s : State) :
    ∃ t, writeReg r v s = .next t ∧ writeReg r v (withBase base s) = .next (withBase base t) := by
  by_cases hcmd : r = .cmd
  · subst hcmd
    exact runCommand_withBase v base s
  · exact ⟨_, writeReg_of_ne_cmd hcmd v s, by rw [writeReg_of_ne_cmd hcmd, storeReg_withBase]⟩

theorem readBus_withBase (r : Reg) (base : Nat) (s : State) :
    readBus r (withBase base s) = withBase base (readBus r s) := by
  cases r <;> rfl

/-- An access is admitted by its offset alone (spec/20_memory.md R61). -/
theorem admitAccess_add (base off : Nat) (width : AccessWidth) :
    admitAccess base (base + off) width = admitAccess 0 off width := by
  simp [admitAccess]

theorem serveAccess_write_withBase {s t : State} {off : Nat} {width : AccessWidth} {v : Word} (base : Nat)
    (h : serveAccess (.write (s.params.base + off) width v) s = .next t) :
    serveAccess (.write (base + off) width v) (withBase base s) = .next (withBase base t) := by
  have hbase : (withBase base s).params.base = base := rfl
  simp only [serveAccess, hbase, admitAccess_add] at h ⊢
  cases hadmit : admitAccess 0 off width with
  | error f => simp [hadmit] at h
  | ok off =>
    simp only [hadmit] at h ⊢
    obtain ⟨t', ht, htbase⟩ := writeReg_withBase (regAt off) v base s
    obtain rfl := Host.Outcome.next.inj (ht.symm.trans h)
    exact htbase

theorem serveAccess_read_withBase {s t : State} {off : Nat} {width : AccessWidth} (base : Nat)
    (h : serveAccess (.read (s.params.base + off) width) s = .next t) :
    serveAccess (.read (base + off) width) (withBase base s) = .next (withBase base t) := by
  have hbase : (withBase base s).params.base = base := rfl
  simp only [serveAccess, hbase, admitAccess_add] at h ⊢
  cases hadmit : admitAccess 0 off width with
  | error f => simp [hadmit] at h
  | ok off =>
    simp only [hadmit] at h ⊢
    obtain rfl := Host.Outcome.next.inj h
    rw [readBus_withBase]

/-- Settles O60: the access lands at the same register, and no command, store or read depends on BASE. -/
theorem nothingDependsOnBase : Obligations.NothingDependsOnBase := by
  intro s t rest off base v
  refine ⟨fun hnext hstep => ?_, fun hnext hstep => ?_⟩
  · rw [step_cons hnext] at hstep
    exact (step_cons rfl).trans (serveAccess_write_withBase (s := { s with inputs := rest }) base hstep)
  · rw [step_cons hnext] at hstep
    exact (step_cons rfl).trans (serveAccess_read_withBase (s := { s with inputs := rest }) base hstep)

/-- Settles O52: each window is the ratio's two inequalities. -/
theorem defaultMatchWindows : Obligations.DefaultMatchWindows := by
  intro d
  simp only [defaultMatch, matchAccepts, Bool.and_eq_true, decide_eq_true_eq]
  omega

end Sys2Proof.Machine
end

section
/-! PROOFS. The registers of the window (spec/10_state.md section 2, spec/20_memory.md R65): their layouts, and what a
write to a stored register leaves. -/

namespace Sys2Proof.Machine

/-- Settles O57: the codes are evaluated, and STATUS reads as its word. -/
theorem statusLayout : Obligations.StatusLayout := by
  refine ⟨⟨rfl, rfl, rfl, rfl, rfl⟩, ⟨rfl, rfl, rfl, rfl, rfl, rfl⟩, fun s => ?_⟩
  obtain ⟨herr, hreason⟩ := statusWord_codes s.status
  obtain ⟨hacc, hcv, htv, hrxovf, herrseen⟩ := statusWord_flags s.status
  exact ⟨herr, hacc, hreason, hcv, htv, hrxovf, herrseen, statusWord_reserved s.status⟩

/-- Settles O58: each register reads as its word. -/
theorem registerLayouts : Obligations.RegisterLayouts := by
  intro s
  obtain ⟨hmodeCode, hfanCode, htempCode, hcsum, hblade, hflags⟩ := fieldsWord_layout s.fields
  obtain ⟨hmode, hfan, hswing⟩ := climateWord_layout s.climate
  obtain ⟨hvariant, hctrl, hctrlBack⟩ := ctrlWord_layout s.variant
  exact ⟨hmodeCode, hfanCode, htempCode, hcsum, hblade, hflags, fieldsWord_reserved _, fieldsOfWord_fieldsWord _,
    hmode, hfan, hswing, climateWord_reserved _, climateOfWord_climateWord _, hvariant, hctrl, hctrlBack,
    rfl, rfl, rfl, rfl, rfl, rfl, rfl, toNat_bladeWord .., toNat_rxlenWord⟩

/-! ### What a write leaves -/

section

variable {r : Reg} (hr : r ≠ .rxpush) (v : Word) (s : State)
include hr

/-- Only CLIMATE and TARGET write STATUS: they become valid (spec/10_state.md R38, R42). -/
theorem storeReg_status : (storeReg r v s).status = { s.status with
    cv := s.status.cv || decide (r = .climate)
    tv := s.status.tv || decide (r = .target) } := by
  cases r with
  | rxpush => exact absurd rfl hr
  | _ =>
    simp only [reduceCtorEq, decide_false, decide_true, Bool.or_false, Bool.or_true]
    rfl

/-- A write to any register but RXPUSH and CMD stores in its own field. -/
theorem storeReg_frame : (storeReg r v s).blade = s.blade ∧ (storeReg r v s).rxcap = s.rxcap ∧
    (storeReg r v s).txq = s.txq ∧ (storeReg r v s).pubq = s.pubq ∧ (storeReg r v s).inputs = s.inputs ∧
    (storeReg r v s).reads = s.reads ∧ (storeReg r v s).params = s.params := by
  cases r with
  | rxpush => exact absurd rfl hr
  | _ => exact ⟨rfl, rfl, rfl, rfl, rfl, rfl, rfl⟩

/-- No other register but STATUS shows the write. -/
theorem readReg_storeReg_other {q : Reg} (hqr : q ≠ r) (hstatus : q ≠ .status) :
    readReg q (storeReg r v s) = readReg q s := by
  cases r with
  | rxpush => exact absurd rfl hr
  | ctrl =>
    cases q with
    | ctrl => exact absurd rfl hqr
    | _ => rfl
  | arg =>
    cases q with
    | arg => exact absurd rfl hqr
    | _ => rfl
  | climate =>
    cases q with
    | climate => exact absurd rfl hqr
    | status => exact absurd rfl hstatus
    | _ => rfl
  | target =>
    cases q with
    | target => exact absurd rfl hqr
    | status => exact absurd rfl hstatus
    | _ => rfl
  | fields =>
    cases q with
    | fields => exact absurd rfl hqr
    | _ => rfl
  | _ => rfl

end

/-- What a stored register reads as, under its mask of implemented bits, and it is neither RXPUSH nor CMD. -/
theorem readReg_storeReg_same {r : Reg} {mask : Word}
    (h : (r, mask) ∈ [(Reg.ctrl, (0x00000001 : Word)), (.arg, 0xFFFFFFFF), (.climate, 0x000003F7),
      (.target, 0xFFFFFFFF), (.fields, 0x7FFF1F37)]) (v : Word) (s : State) :
    readReg r (storeReg r v s) = v &&& mask ∧ r ≠ .rxpush ∧ r ≠ .cmd := by
  simp only [List.mem_cons, Prod.mk.injEq, List.not_mem_nil, or_false] at h
  rcases h with ⟨rfl, rfl⟩ | ⟨rfl, rfl⟩ | ⟨rfl, rfl⟩ | ⟨rfl, rfl⟩ | ⟨rfl, rfl⟩
  · exact ⟨ctrlWord_variantOfWord v, by decide, by decide⟩
  · exact ⟨BitVec.and_allOnes.symm, by decide, by decide⟩
  · exact ⟨climateWord_climateOfWord v, by decide, by decide⟩
  · exact ⟨BitVec.and_allOnes.symm, by decide, by decide⟩
  · exact ⟨fieldsWord_fieldsOfWord v, by decide, by decide⟩

/-- Settles O55: the write stores in the register's own field, and in CV or TV for CLIMATE and TARGET. -/
theorem writesReadBackMasked : Obligations.WritesReadBackMasked := by
  intro s rest r v mask hmem hnext
  obtain ⟨hread, hrxpush, hcmd⟩ := readReg_storeReg_same hmem v { s with inputs := rest }
  have hstep : step s = .next (storeReg r v { s with inputs := rest }) :=
    (step_write hnext).trans (writeReg_of_ne_cmd hcmd v _)
  refine ⟨_, hstep, hread, fun q hqr hstatus => ?_, storeReg_status hrxpush .., storeReg_frame hrxpush ..⟩
  rw [readReg_storeReg_other hrxpush v _ hqr hstatus]
  cases q <;> rfl

end Sys2Proof.Machine
end
